-- ==== Sys2Proof/Word.lean ====
section
/-! DEFINITION. The word types of the core (spec/00_scope.md R3 to R6): every value is an unsigned bit vector. -/

namespace Sys2Proof

/-- A 64-bit word: V0..V3, M, K0, K1, DIGEST and the DATA operand (R3, R4). -/
abbrev Word := BitVec 64

/-- One byte of key, of message or of a DATA lane (R5, R31). -/
abbrev Byte := BitVec 8

/-- A 32-bit word: CMD and STATUS (R4). -/
abbrev Word32 := BitVec 32

end Sys2Proof
end

