-- ==== Sys2Proof/Config.lean ====
section
/-! DEFINITION. What is fixed for a core: the constants of spec/00_scope.md R3 and R4, and the parameters R4 calls OPEN,
which the port-level model takes as an argument (spec/93_implementation_defined.md U5 to U7, U9). -/

namespace Sys2Proof.Config

/-- Key length in bytes (R3). -/
def keyBytes : Nat := 16

/-- Compression rounds per block, the "2" of SipHash-2-4 (R3). -/
def compressionRounds : Nat := 2

/-- Finalization rounds, the "4" of SipHash-2-4 (R3). -/
def finalizationRounds : Nat := 4

/-- The value at which the 5-bit counter KLEN saturates (R4, R15). -/
def klenMax : Nat := 31

/-- OPEN: whether `rst` acts at a clock edge or at once (R131). -/
inductive ResetStyle where
  | synchronous
  | asynchronous
  deriving DecidableEq, Repr

/-- OPEN: the cycles from acceptance to completion of each command (R140). -/
structure Latencies where
  nop : Nat
  key : Nat
  init : Nat
  block : Nat
  final : Nat
  clr : Nat
  illegal : Nat
  deriving DecidableEq, Repr

/-- Each latency is at least 1 (R140). -/
abbrev Latencies.wf (l : Latencies) : Prop :=
  1 ≤ l.nop ∧ 1 ≤ l.key ∧ 1 ≤ l.init ∧ 1 ≤ l.block ∧ 1 ≤ l.final ∧ 1 ≤ l.clr ∧ 1 ≤ l.illegal

/-- The OPEN parameters of R4, but for BUS_MAP, which belongs to the platform and not to the core (R40). -/
structure Params where
  lat : Latencies
  /-- ROUNDS_PER_CYCLE: SipRounds the round engine completes per clock (R67). -/
  roundsPerCycle : Nat
  /-- RESET_STYLE (R131). -/
  resetStyle : ResetStyle
  /-- N_CORES: instances on the platform (R121). -/
  nCores : Nat
  deriving DecidableEq, Repr

/-- What R140 and R67 ask of the parameters: every latency, and the rounds per cycle, at least 1. -/
abbrev Params.wf (p : Params) : Prop :=
  p.lat.wf ∧ 1 ≤ p.roundsPerCycle

end Sys2Proof.Config
end

