-- ==== Sys2Proof/Syntax.lean ====
section
/-! DEFINITION. A command as the host presents it (spec/30_encoding.md R45), and the instructions it decodes to: one
constructor per row of spec/opcode_table.json (R47). -/

namespace Sys2Proof

/-- A command: the CMD word and the DATA operand, both sampled at the accepting edge (R45). -/
structure Command where
  cmd : Word32
  data : Word
  deriving DecidableEq, Repr

/-- A decoded command. `nk` and `n` are the byte counts R48 and R49 form from CNT; DATA is an operand of KEY, BLOCK
and FINAL only (R50). A count out of range has no encoding and is ill-formed (DESIGN CHOICE, notes/assumptions/11.md;
the missing DATA of the others: DEDUCED, notes/assumptions/10.md). -/
inductive Instr where
  /-- NOP (R101). -/
  | nop
  /-- KEY nk, data; KEY.S when `start` (R80). -/
  | key (start : Bool) (nk : Nat) (data : Word)
  /-- INIT (R81). -/
  | init
  /-- BLOCK data (R90). -/
  | block (data : Word)
  /-- FINAL n, data (R91). -/
  | final (n : Nat) (data : Word)
  /-- CLR (R102). -/
  | clr
  deriving DecidableEq, Repr

end Sys2Proof
end

