-- ==== Sys2Proof/WellFormed.lean ====
section
/-! DEFINITION. The checks an instruction passes before it has an encoding (spec/30_encoding.md R48, R49, R54). -/

namespace Sys2Proof

/-- KEY carries 1 to 8 bytes; "a KEY with zero bytes cannot be encoded" (R48). -/
def keyCountOk (nk : Nat) : Bool := decide (1 ≤ nk) && decide (nk ≤ 8)

/-- FINAL carries 0 to 7 tail bytes (R49). -/
def tailCountOk (n : Nat) : Bool := decide (n ≤ 7)

/-- The instruction has an encoding. -/
def Instr.wellFormed : Instr → Bool
  | .nop => true
  | .key _ nk _ => keyCountOk nk
  | .init => true
  | .block _ => true
  | .final n _ => tailCountOk n
  | .clr => true

end Sys2Proof
end

