-- ==== Sys2Proof/Decode.lean ====
section
/-! DEFINITION. The decoder and the encoder of spec/30_encoding.md R46 to R52. -/

namespace Sys2Proof

/-- One row of R51: a word decodes to the row it matches, `(CMD & mask) == match`. -/
structure EncodingRow where
  mnemonic : String
  pattern : Word32
  mask : Word32
  deriving DecidableEq, Repr

/-- The six rows of R51, in its order. -/
def encodingRows : List EncodingRow :=
  [⟨"NOP", 0x00000000#32, 0xFFFFFFFF#32⟩,
   ⟨"KEY", 0x00000001#32, 0xFFFFF8EF#32⟩,
   ⟨"INIT", 0x00000002#32, 0xFFFFFFFF#32⟩,
   ⟨"BLOCK", 0x00000003#32, 0xFFFFFFFF#32⟩,
   ⟨"FINAL", 0x00000004#32, 0xFFFFF8FF#32⟩,
   ⟨"CLR", 0x00000005#32, 0xFFFFFFFF#32⟩]

/-- The word matches the row (R51). -/
def EncodingRow.accepts (r : EncodingRow) (w : Word32) : Bool := w &&& r.mask == r.pattern

/-- The field OP = CMD[3:0] (R46). -/
def fieldOp (w : Word32) : BitVec 4 := w.extractLsb' 0 4

/-- The field S = CMD[4] (R46). -/
def fieldS (w : Word32) : Bool := w.getLsbD 4

/-- The field CNT = CMD[10:8] (R46). -/
def fieldCnt (w : Word32) : BitVec 3 := w.extractLsb' 8 3

/-- Why a word is illegal; the causes R52 and R110 list. The core records none of them: it raises ILLEGAL_CMD alike
(DESIGN CHOICE, notes/assumptions/15.md). -/
inductive IllegalReason where
  /-- OP is 0x6 to 0xF. -/
  | reservedOp
  /-- A legal OP with a nonzero bit in CMD[7:5] or CMD[31:11]. -/
  | reservedBits
  /-- S is set outside KEY. -/
  | startOutsideKey
  /-- CNT is nonzero outside KEY and FINAL. -/
  | countOutsideKeyAndFinal
  deriving DecidableEq, Repr

/-- The result of decoding: one of the six commands, or ILLEGAL (R51). -/
inductive Decoded where
  | instr (i : Instr)
  | illegal (why : IllegalReason)
  deriving DecidableEq, Repr

/-- Which of R52's causes an illegal word shows first. -/
def illegalReason (w : Word32) : IllegalReason :=
  if 6 ≤ (fieldOp w).toNat then .reservedOp
  else if w &&& 0xFFFFF8E0#32 ≠ 0#32 then .reservedBits
  else if fieldS w && (fieldOp w != 1#4) then .startOutsideKey
  else .countOutsideKeyAndFinal

/-- `Decode` of R51. It reads the CMD word only (R53); DATA is carried along for the commands that use it. -/
def decode (c : Command) : Decoded :=
  if c.cmd = 0x00000000#32 then .instr .nop
  else if c.cmd &&& 0xFFFFF8EF#32 = 0x00000001#32 then
    .instr (.key (fieldS c.cmd) ((fieldCnt c.cmd).toNat + 1) c.data)
  else if c.cmd = 0x00000002#32 then .instr .init
  else if c.cmd = 0x00000003#32 then .instr (.block c.data)
  else if c.cmd &&& 0xFFFFF8FF#32 = 0x00000004#32 then
    .instr (.final (fieldCnt c.cmd).toNat c.data)
  else if c.cmd = 0x00000005#32 then .instr .clr
  else .illegal (illegalReason c.cmd)

/-- The CMD word with the given fields and every reserved bit 0 (R46). -/
def cmdWord (op : BitVec 4) (s : Bool) (cnt : BitVec 3) : Word32 :=
  op.setWidth 32 ||| ((BitVec.ofBool s).setWidth 32 <<< 4) ||| (cnt.setWidth 32 <<< 8)

/-- The command of an instruction (R46 to R50, R54). An instruction without DATA is given DATA = 0, as R54 encodes an
omitted operand (DEDUCED, notes/assumptions/10.md). -/
def encode : Instr → Command
  | .nop => ⟨cmdWord 0x0#4 false 0#3, 0#64⟩
  | .key start nk data => ⟨cmdWord 0x1#4 start (BitVec.ofNat 3 (nk - 1)), data⟩
  | .init => ⟨cmdWord 0x2#4 false 0#3, 0#64⟩
  | .block data => ⟨cmdWord 0x3#4 false 0#3, data⟩
  | .final n data => ⟨cmdWord 0x4#4 false (BitVec.ofNat 3 n), data⟩
  | .clr => ⟨cmdWord 0x5#4 false 0#3, 0#64⟩

/-- The instruction uses the DATA operand (R50, R39). -/
def Instr.usesData : Instr → Bool
  | .key _ _ _ => true
  | .block _ => true
  | .final _ _ => true
  | .nop => false
  | .init => false
  | .clr => false

/-- The mnemonic of R47 and spec/opcode_table.json. -/
def Instr.mnemonic : Instr → String
  | .nop => "NOP"
  | .key _ _ _ => "KEY"
  | .init => "INIT"
  | .block _ => "BLOCK"
  | .final _ _ => "FINAL"
  | .clr => "CLR"

/-- The command whose bits are `w`: CMD is bits 31..0 and DATA is bits 95..32; bits from `nbits` up are 0
(DESIGN CHOICE, notes/assumptions/6.md). -/
def commandOfBits (nbits w : Nat) : Command :=
  let bits := w % 2 ^ nbits
  ⟨BitVec.ofNat 32 bits, BitVec.ofNat 64 (bits >>> 32)⟩

/-- What the decoder reads from a command given as one number of `nbits` bits. -/
def decodeTableWord (nbits w : Nat) : Option Instr :=
  match decode (commandOfBits nbits w) with
  | .instr i => some i
  | .illegal _ => none

end Sys2Proof
end

