-- ==== Sys2Proof/Machine/State.lean ====
section
/-! DEFINITION. The state of the core: the registers of spec/10_state.md R10, the latch of a command in flight (R25, R41),
and the model state the spec names (the fault mark of R145, the host's remaining program of R144). -/

namespace Sys2Proof.Machine

/-- PHASE, the sequencing state. The value 3 is never held (R16). -/
inductive Phase where
  | idle
  | absorb
  | finished
  deriving DecidableEq, Repr

/-- ERR, the error code. The codes 4 to 7 are never held (R17, R110). -/
inductive ErrCode where
  | none
  | illegalCmd
  | keyLength
  | sequence
  deriving DecidableEq, Repr

/-- The permutation state V0..V3 (R11); the datapath functions of spec/40_datapath.md map it to itself. -/
structure Perm where
  v0 : Word
  v1 : Word
  v2 : Word
  v3 : Word
  deriving DecidableEq, Repr

/-- The file KEYBUF of sixteen byte registers (R14). -/
abbrev KeyBuf := Vector Byte 16

/-- The state of one core, with the host's side of the command channel. -/
structure State where
  /-- V0..V3 (R11). -/
  v : Perm
  /-- M, the message-block scratch word (R12). -/
  m : Word
  /-- KEYBUF[0..15] (R14). -/
  keybuf : KeyBuf
  /-- KLEN, the key bytes delivered since the last clear, saturating at 31 (R15). -/
  klen : BitVec 5
  /-- LEN8, the message length so far modulo 256 (R22). -/
  len8 : BitVec 8
  /-- PHASE (R16). -/
  phase : Phase
  /-- ERR, sticky (R17). -/
  err : ErrCode
  /-- DIGEST (R18). -/
  digest : Word
  /-- BUSY (R19). -/
  busy : Bool
  /-- The latched CMD and DATA of the command in flight; zero when BUSY is 0 (R25, R41; DEDUCED,
  notes/assumptions/4.md). -/
  latch : Command
  /-- Cycles to the completion edge of the command in flight; zero when BUSY is 0 (R25, R140; DEDUCED,
  notes/assumptions/4.md). -/
  cyclesLeft : Nat
  /-- The fault mark, model state: an error has been raised since launch (R145). -/
  faulted : Bool
  /-- The host's commands not yet accepted, in the order it presents them (R144; DESIGN CHOICE,
  notes/assumptions/1.md). -/
  program : List Command
  deriving DecidableEq, Repr

/-- What stops the machine with a fault: nothing. An error of this core is a next state with ERR set (R111, R112), and
every accepted command completes (R144), so this type has no constructor (DEDUCED, notes/assumptions/3.md). -/
inductive Fault where
  deriving DecidableEq, Repr

/-- Why the model takes no step. -/
inductive Refusal where
  /-- Raised by an arm of `exec` that has no meaning yet; no arm raises it now. Safe: the model stops. -/
  | notModelled (mnemonic : String)
  /-- Raised by a clock edge of Machine/Ports.lean when the host changes the word or data it offers before the core takes
  it (R134). spec/93_implementation_defined.md U4 treats the case as `refuse`. Unsafe: no claim covers such a host (DESIGN CHOICE, notes/assumptions/8.md). -/
  | handshakeBroken
  deriving DecidableEq, Repr

/-- The outcome type of this machine. -/
abbrev Result := Host.Outcome State Fault Refusal

/-- The all-zero permutation state (R130; R91 and R102 write it too). -/
def Perm.zero : Perm := ⟨0#64, 0#64, 0#64, 0#64⟩

/-- The cleared key buffer (R80 with S = 1, R130). -/
def KeyBuf.zero : KeyBuf := Vector.replicate 16 0#8

/-- The latch when no command is in flight. -/
def emptyLatch : Command := ⟨0#32, 0#64⟩

/-- The state after reset (R130): every register 0, PHASE = IDLE, ERR = NONE, BUSY = 0; the fault mark clear (R145); no
command waiting (notes/assumptions/1.md). -/
def State.reset : State where
  v := Perm.zero
  m := 0#64
  keybuf := KeyBuf.zero
  klen := 0#5
  len8 := 0#8
  phase := .idle
  err := .none
  digest := 0#64
  busy := false
  latch := emptyLatch
  cyclesLeft := 0
  faulted := false
  program := []

end Sys2Proof.Machine
end

