-- ==== Sys2Proof/Machine/Flags.lean ====
section
/-! DEFINITION. The status the host reads: the codes of PHASE and ERR, STATUS (spec/10_state.md R20) and the output ports of
spec/20_memory.md R30. The core has no condition codes (R24). -/

namespace Sys2Proof.Machine

/-- The value of PHASE (R16). -/
def Phase.code : Phase → BitVec 2
  | .idle => 0#2
  | .absorb => 1#2
  | .finished => 2#2

/-- The value of ERR (R17, R110). -/
def ErrCode.code : ErrCode → BitVec 3
  | .none => 0#3
  | .illegalCmd => 1#3
  | .keyLength => 2#3
  | .sequence => 3#3

/-- STATUS, by the formula of R20. -/
def status (s : State) : Word32 :=
  (BitVec.ofBool s.busy).setWidth 32 ||| (s.phase.code.setWidth 32 <<< 1) |||
  (s.err.code.setWidth 32 <<< 4) ||| (s.klen.setWidth 32 <<< 8) ||| (s.len8.setWidth 32 <<< 16)

/-- The output `cmd_ready = ~BUSY` (R19). -/
def cmdReady (s : State) : Bool := !s.busy

/-- The output `digest`, bit `i` of DIGEST on wire `i` (R18, R36). -/
def digestPort (s : State) : Word := s.digest

/-- DIGEST is valid: BUSY = 0 and PHASE = FINISHED (R138). -/
def digestValid (s : State) : Bool := !s.busy && decide (s.phase = .finished)

end Sys2Proof.Machine
end

