-- ==== Sys2Proof/Machine/Operands.lean ====
section
/-! DEFINITION. The operand forms of spec/20_memory.md R31 to R35: byte lanes, little-endian words, the key words and the
message blocks. -/

namespace Sys2Proof.Machine

/-- `Lane(DATA, i) = DATA[8i+7:8i]` (R31). -/
def lane (data : Word) (i : Nat) : Byte := data.extractLsb' (8 * i) 8

/-- `LE64(b 0, ..., b 7)`: byte `i` in bits 8i+7:8i, the first byte least significant (R32). -/
def le64 (b : Nat → Byte) : Word :=
  (b 0).setWidth 64 ||| ((b 1).setWidth 64 <<< 8) ||| ((b 2).setWidth 64 <<< 16) |||
  ((b 3).setWidth 64 <<< 24) ||| ((b 4).setWidth 64 <<< 32) ||| ((b 5).setWidth 64 <<< 40) |||
  ((b 6).setWidth 64 <<< 48) ||| ((b 7).setWidth 64 <<< 56)

/-- KEYBUF[i] (R14); only 0 to 15 are ever asked for. -/
def keyByte (k : KeyBuf) (i : Nat) : Byte := k.toList.getD i 0#8

/-- K0, the little-endian word of key bytes 0 to 7 (R33). -/
def keyWord0 (k : KeyBuf) : Word := le64 fun i => keyByte k i

/-- K1, the little-endian word of key bytes 8 to 15 (R33). -/
def keyWord1 (k : KeyBuf) : Word := le64 fun i => keyByte k (8 + i)

/-- The bytes `bytes[8j .. 8j+7]` as a little-endian word, bytes beyond the end read as zero: the message block `j` of R34
when all eight exist, and the zero-filled tail word of R35 when `j` is the number of full blocks. -/
def chunkWord (bytes : List Byte) (j : Nat) : Word := le64 fun i => bytes.getD (8 * j + i) 0#8

/-- The mask `2^(8n) - 1` that keeps lanes 0 to n-1 (R69). -/
def laneMask (n : Nat) : Word := BitVec.ofNat 64 (2 ^ (8 * n) - 1)

/-- The store loop of KEY (R80) for its first `k` bytes: byte `j` goes to position `base + j` where that is below 16, and is
dropped otherwise. -/
def storeKeyBytes (kb : KeyBuf) (base : Nat) (data : Word) : Nat → KeyBuf
  | 0 => kb
  | j + 1 =>
    let kb' := storeKeyBytes kb base data j
    if h : base + j < 16 then kb'.set (base + j) (lane data j) h else kb'

/-- `min(base + nk, 31)` as the 5-bit KLEN (R80). -/
def countKeyBytes (base nk : Nat) : BitVec 5 := BitVec.ofNat 5 (min (base + nk) Config.klenMax)

end Sys2Proof.Machine
end

