-- ==== Sys2Proof/Machine/Ops.lean ====
section
/-! DEFINITION. The shared operations over the state: the error gate, raising an error and recovering from one
(spec/60_exceptions.md R111, R113, R116), reset (spec/70_reset_and_hazards.md R130), and the command channel
(spec/20_memory.md R41). -/

namespace Sys2Proof.Machine

/-- The state of an outcome that has one. -/
def nextState? : Result → Option State
  | .next s => some s
  | .fault _ => none
  | .refused _ => none

/-- The writes of an error: ERR takes the code and no other register changes (R111); the fault mark is set (R145). -/
def State.withError (code : ErrCode) (s : State) : State := { s with err := code, faulted := true }

/-- `raise Error(code)`: the command is complete with the error recorded and none of its writes (R111). -/
def raiseError (code : ErrCode) (s : State) : Result := .next (s.withError code)

/-- The error gate: while ERR is not NONE the command completes with no effect (R113). -/
def gated (s : State) (body : Result) : Result :=
  if s.err = .none then body else .next s

/-- The writes of CLR, the only return from the error state but reset (R102, R116): the error is cleared and an open
invocation abandoned, KEYBUF and KLEN are kept, and the fault mark is not cleared (R145). -/
def State.recover (s : State) : State :=
  { s with v := Perm.zero, m := 0#64, len8 := 0#8, digest := 0#64, phase := .idle, err := .none }

/-- An illegal CMD word: ILLEGAL_CMD under the gate (R52, R100, R114). -/
def execIllegal (s : State) : Result := gated s (raiseError .illegalCmd s)

/-- The host has still `rest` to present (R144). -/
def State.withProgram (rest : List Command) (s : State) : State := { s with program := rest }

/-- `rst` asserted: every register takes its reset value and a command in flight is abandoned (R130, R131). The fault mark
is clear, since a new run begins (R145; DEDUCED, notes/assumptions/5.md); the commands the host has not yet had accepted
are the host's and stay. -/
def State.resetCore (s : State) : State := State.reset.withProgram s.program

/-- The command in flight leaves the latch and BUSY returns to 0 (R41). -/
def State.retire (s : State) : State := { s with busy := false, latch := emptyLatch, cyclesLeft := 0 }

/-- One more cycle of the command in flight has passed (R140). -/
def State.countDown (s : State) : State := { s with cyclesLeft := s.cyclesLeft - 1 }

/-- A command is accepted: CMD and DATA are latched and BUSY is set (R41); `cycles` is its latency (R140). -/
def State.accept (c : Command) (cycles : Nat) (s : State) : State :=
  { s with busy := true, latch := c, cyclesLeft := cycles }

/-- The command the core completes next, and the state it finds: the command in flight if BUSY is 1, else the next one the
host presents; none when the host presents no further command (R41, R144; DEDUCED, notes/assumptions/2.md). -/
def fetch (s : State) : Option (Command × State) :=
  if s.busy then some (s.latch, s.retire)
  else
    match s.program with
    | [] => none
    | c :: rest => some (c, s.withProgram rest)

end Sys2Proof.Machine
end

