-- ==== Sys2Proof/Machine/Control.lean ====
section
/-! DEFINITION. NOP and CLR (spec/43_control.md R101, R102). -/

namespace Sys2Proof.Machine

/-- NOP: no write, gated or not (R101). -/
def execNop (s : State) : Result := gated s (.next s)

/-- CLR: runs in every phase and is the one command the error gate lets through (R102, R113). -/
def execClr (s : State) : Result := .next s.recover

end Sys2Proof.Machine
end

