-- ==== Sys2Proof/Machine/Datapath.lean ====
section
/-! DEFINITION. The pure functions of spec/40_datapath.md: state initializer, round engine, padder, finalization mixer,
digest extractor, and the whole function SipHash24. -/

namespace Sys2Proof.Machine

/-- Addition modulo 2^64 (R60). -/
def add64 (a b : Word) : Word := a + b

/-- Left rotation by `r`, 0 < r < 64 (R61). -/
def rotl64 (x : Word) (r : Nat) : Word := (x <<< r) ||| (x >>> (64 - r))

/-- IV0 (R63). -/
def iv0 : Word := 0x736f6d6570736575#64
/-- IV1 (R63). -/
def iv1 : Word := 0x646f72616e646f6d#64
/-- IV2 (R63). -/
def iv2 : Word := 0x6c7967656e657261#64
/-- IV3 (R63). -/
def iv3 : Word := 0x7465646279746573#64

/-- `InitState(K0, K1)` (R64). -/
def initState (k0 k1 : Word) : Perm := ⟨k0 ^^^ iv0, k1 ^^^ iv1, k0 ^^^ iv2, k1 ^^^ iv3⟩

/-- `SipRound` in the single-assignment form of R66. -/
def sipRound (x : Perm) : Perm :=
  let a0 := add64 x.v0 x.v1
  let a2 := add64 x.v2 x.v3
  let b1 := rotl64 x.v1 13 ^^^ a0
  let b3 := rotl64 x.v3 16 ^^^ a2
  let b0 := rotl64 a0 32
  let c2 := add64 a2 b1
  let c0 := add64 b0 b3
  let d1 := rotl64 b1 17 ^^^ c2
  let d3 := rotl64 b3 21 ^^^ c0
  let d2 := rotl64 c2 32
  ⟨c0, d1, d2, d3⟩

/-- SipRound applied `n` times. -/
def sipRounds : Nat → Perm → Perm
  | 0, x => x
  | n + 1, x => sipRounds n (sipRound x)

/-- `Compress(V, m)`: m into v3, two rounds, m into v0 (R68). -/
def compress (x : Perm) (m : Word) : Perm :=
  let y := sipRounds Config.compressionRounds { x with v3 := x.v3 ^^^ m }
  { y with v0 := y.v0 ^^^ m }

/-- `Pad(d, n, L)`: lanes 0 to n-1 of `d`, zeros, and the length byte in bits 63:56 (R69). -/
def pad (d : Word) (n : Nat) (len : BitVec 8) : Word :=
  (d &&& laneMask n) ||| (len.setWidth 64 <<< 56)

/-- `Finalize(V)`: 0xff into v2, then four rounds (R70). -/
def finalize (x : Perm) : Perm :=
  sipRounds Config.finalizationRounds { x with v2 := x.v2 ^^^ 0xff#64 }

/-- `Extract(V)` (R71). -/
def extract (x : Perm) : Word := x.v0 ^^^ x.v1 ^^^ x.v2 ^^^ x.v3

/-- Stage 2 of R72: the blocks 0 to k-1 of the message are compressed in order. -/
def absorbBlocks (msg : List Byte) (x : Perm) : Nat → Perm
  | 0 => x
  | k + 1 => compress (absorbBlocks msg x k) (chunkWord msg k)

/-- `SipHash24(key, msg)`, the four stages of R72. -/
def sipHash24 (key : KeyBuf) (msg : List Byte) : Word :=
  let full := msg.length / 8
  let t := msg.length % 8
  let v1 := initState (keyWord0 key) (keyWord1 key)
  let v2 := absorbBlocks msg v1 full
  let v3 := compress v2 (pad (chunkWord msg full) t (BitVec.ofNat 8 msg.length))
  extract (finalize v3)

end Sys2Proof.Machine
end

