-- ==== Sys2Proof/Machine/KeyInit.lean ====
section
/-! DEFINITION. KEY and INIT (spec/41_key_init.md R80, R81). -/

namespace Sys2Proof.Machine

/-- The writes of KEY: `base` is 0 after a clear and KLEN otherwise (R80). -/
def State.loadKey (start : Bool) (nk : Nat) (data : Word) (s : State) : State :=
  let base := if start then 0 else s.klen.toNat
  let kb := if start then KeyBuf.zero else s.keybuf
  { s with keybuf := storeKeyBytes kb base data nk, klen := countKeyBytes base nk }

/-- KEY S, nk, DATA (R80). -/
def execKey (start : Bool) (nk : Nat) (data : Word) (s : State) : Result :=
  gated s <|
    if s.phase = .absorb then raiseError .sequence s
    else .next (s.loadKey start nk data)

/-- The writes of INIT: the invocation is opened (R81). -/
def State.openInvocation (s : State) : State :=
  { s with
    v := initState (keyWord0 s.keybuf) (keyWord1 s.keybuf)
    m := 0#64
    len8 := 0#8
    digest := 0#64
    phase := .absorb }

/-- INIT (R81): SEQUENCE before KEY_LENGTH (R114). -/
def execInit (s : State) : Result :=
  gated s <|
    if s.phase = .absorb then raiseError .sequence s
    else if s.klen.toNat ≠ Config.keyBytes then raiseError .keyLength s
    else .next s.openInvocation

end Sys2Proof.Machine
end

