-- ==== Sys2Proof/Machine/Message.lean ====
section
/-! DEFINITION. BLOCK and FINAL (spec/42_message.md R90, R91). -/

namespace Sys2Proof.Machine

/-- The writes of BLOCK (R90). -/
def State.absorbWord (data : Word) (s : State) : State :=
  { s with m := data, v := compress s.v data, len8 := s.len8 + 8#8 }

/-- BLOCK DATA (R90). -/
def execBlock (data : Word) (s : State) : Result :=
  gated s <|
    if s.phase ≠ .absorb then raiseError .sequence s
    else .next (s.absorbWord data)

/-- `L = (LEN8 + n) mod 256` (R91). -/
def finalLength (n : Nat) (s : State) : BitVec 8 := s.len8 + BitVec.ofNat 8 n

/-- The digest FINAL extracts: pad, compress the tail, finalize, extract (R91). -/
def finalDigest (n : Nat) (data : Word) (s : State) : Word :=
  extract (finalize (compress s.v (pad data n (finalLength n s))))

/-- The writes of FINAL: the invocation is completed and its state discarded (R91). -/
def State.closeInvocation (n : Nat) (data : Word) (s : State) : State :=
  { s with
    digest := finalDigest n data s
    len8 := finalLength n s
    phase := .finished
    v := Perm.zero
    m := 0#64 }

/-- FINAL n, DATA (R91). -/
def execFinal (n : Nat) (data : Word) (s : State) : Result :=
  gated s <|
    if s.phase ≠ .absorb then raiseError .sequence s
    else .next (s.closeInvocation n data)

end Sys2Proof.Machine
end

