-- ==== Sys2Proof/Machine/Dispatch.lean ====
section
/-! DEFINITION. The effect of each decoded command (spec/43_control.md R100). -/

namespace Sys2Proof.Machine

def exec (i : Instr) (s : State) : Host.Outcome State Fault Refusal :=
  match i with
  | .nop => Sys2Proof.Machine.execNop s
  | .key start nk data => Sys2Proof.Machine.execKey start nk data s
  | .init => Sys2Proof.Machine.execInit s
  | .block data => Sys2Proof.Machine.execBlock data s
  | .final n data => Sys2Proof.Machine.execFinal n data s
  | .clr => Sys2Proof.Machine.execClr s

end Sys2Proof.Machine
end

