-- ==== Sys2Proof/Machine/CommandStep.lean ====
section
/-! DEFINITION. The command step of spec/43_control.md R100, and a run of the host's commands (R144). -/

namespace Sys2Proof.Machine

/-- `Step(CMD, DATA)` of R100: decode, then the command's effect or ILLEGAL_CMD, each under the error gate. -/
def runCommand (c : Command) (s : State) : Result :=
  match decode c with
  | .instr i => exec i s
  | .illegal _ => execIllegal s

/-- The command step applied to each pair in turn (R144). -/
def runCommands : List Command → State → Result
  | [], s => .next s
  | c :: rest, s =>
    match runCommand c s with
    | .next t => runCommands rest t
    | .fault r => .fault r
    | .refused r => .refused r

/-- Complete the command that `fetch` gives; with none, the core waits and keeps its state (R144, R123). -/
def completeNext (s : State) : Result :=
  match fetch s with
  | none => .next s
  | some (c, t) => runCommand c t

/-- The state in which the very next step runs `c`: nothing is in flight and the host presents `c` first. -/
def State.presenting (c : Command) (s : State) : State :=
  s.retire.withProgram (c :: s.program)

end Sys2Proof.Machine
end

