-- ==== Sys2Proof/Machine/Step.lean ====
section
/-! DEFINITION. The step of the machine at command level: one command is one atomic step (spec/00_scope.md R9,
spec/92_eei_decisions.md D1). -/

namespace Sys2Proof.Machine

/-- One command is accepted and completed; a command already in flight is completed instead. -/
def step (s : State) : Host.Outcome State Fault Refusal := completeNext s

/-- `s` with the command whose bits are `w` presented next (notes/assumptions/1.md, notes/assumptions/6.md). -/
def State.withFetchWord (s : State) (nbits w : Nat) : State := s.presenting (commandOfBits nbits w)

end Sys2Proof.Machine
end

