-- ==== Sys2Proof/Machine/Assembler.lean ====
section
/-! DEFINITION. The assembly notation of spec/30_encoding.md R54 to R56: lines, DATA operands, pseudo-commands, and the
reading of a line of text. The notation is that of the spec's examples (R57); the machine reads (CMD, DATA) pairs. -/

namespace Sys2Proof.Machine

/-- The two forms of a `data` operand (R55). -/
inductive DataOperand where
  /-- A hexadecimal number: the DATA value itself. -/
  | number (w : Word)
  /-- A byte list: byte `i` in lane `i`, zeros in the other lanes; it may be empty (DESIGN CHOICE, notes/assumptions/12.md). -/
  | bytes (bs : List Byte)
  deriving DecidableEq, Repr

/-- The DATA value; a byte list holds at most 8 bytes (R55), and an empty one is DATA = 0 (DESIGN CHOICE,
notes/assumptions/12.md). -/
def DataOperand.value : DataOperand → Option Word
  | .number w => some w
  | .bytes bs => if bs.length ≤ 8 then some (chunkWord bs 0) else none

/-- One line of R54. -/
inductive AsmLine where
  | nop
  | key (nk : Nat) (data : DataOperand)
  | keyS (nk : Nat) (data : DataOperand)
  | init
  | block (data : DataOperand)
  /-- `FINAL 0` may omit its operand. -/
  | final (n : Nat) (data : Option DataOperand)
  | clr
  /-- `.word cmd, data`: the raw pair. -/
  | word (cmd : Word32) (data : DataOperand)
  deriving DecidableEq, Repr

/-- The encoding of an instruction that has one. -/
def encodeChecked (i : Instr) : Option Command := if i.wellFormed then some (encode i) else none

/-- The command a line encodes, none for a line R54 does not allow. An omitted operand encodes DATA = 0,
and so do NOP, INIT and CLR, for which R54 says DATA any (DEDUCED, notes/assumptions/10.md). -/
def AsmLine.assemble : AsmLine → Option Command
  | .nop => some (encode .nop)
  | .key nk d => d.value.bind fun w => encodeChecked (.key false nk w)
  | .keyS nk d => d.value.bind fun w => encodeChecked (.key true nk w)
  | .init => some (encode .init)
  | .block d => d.value.map fun w => encode (.block w)
  | .final n (some d) => d.value.bind fun w => encodeChecked (.final n w)
  | .final n none => if n = 0 then some (encode (.final 0 0#64)) else none
  | .clr => some (encode .clr)
  | .word cmd d => d.value.map fun w => ⟨cmd, w⟩

/-- The pseudo-commands of R56. -/
inductive Pseudo where
  | loadKey (key : KeyBuf)
  | absorb (msg : List Byte)
  | hash (key : KeyBuf) (msg : List Byte)
  | abort
  deriving DecidableEq, Repr

/-- The bytes `8j .. 8j+7` of a list, fewer at its end. -/
def chunkBytes (bytes : List Byte) (j : Nat) : List Byte := (bytes.drop (8 * j)).take 8

/-- `LOADKEY` (R56). -/
def loadKeyLines (key : KeyBuf) : List AsmLine :=
  [.keyS 8 (.bytes (chunkBytes key.toList 0)), .key 8 (.bytes (chunkBytes key.toList 1))]

/-- `ABSORB` (R56): the full blocks in order, then the tail. -/
def absorbLines (msg : List Byte) : List AsmLine :=
  (List.range (msg.length / 8)).map (fun j => .block (.bytes (chunkBytes msg j))) ++
  [.final (msg.length % 8) (some (.bytes (chunkBytes msg (msg.length / 8))))]

/-- The real lines a pseudo-command stands for (R56). -/
def Pseudo.expand : Pseudo → List AsmLine
  | .loadKey key => loadKeyLines key
  | .absorb msg => absorbLines msg
  | .hash key msg => loadKeyLines key ++ [.init] ++ absorbLines msg
  | .abort => [.clr]

/-- The commands of a list of lines, none if one of them does not assemble. -/
def assembleAll : List AsmLine → Option (List Command)
  | [] => some []
  | l :: rest =>
    match l.assemble, assembleAll rest with
    | some c, some cs => some (c :: cs)
    | _, _ => none

/-! Reading a line of text (R54, R55). What R54 leaves open of the spelling is settled in notes/assumptions/12.md
(DESIGN CHOICE). -/

/-- Upper case of an ASCII letter: mnemonics are case-insensitive (R54). -/
def upperChar (c : Char) : Char := if 97 ≤ c.toNat ∧ c.toNat ≤ 122 then Char.ofNat (c.toNat - 32) else c

/-- A space or a tab. -/
def isBlankChar (c : Char) : Bool := c == ' ' || c.toNat == 9

/-- The line without its comment: `;` starts one (R54). -/
def dropComment : List Char → List Char
  | [] => []
  | c :: cs => if c == ';' then [] else c :: dropComment cs

/-- The text without blanks at either end. -/
def trimChars (cs : List Char) : List Char :=
  ((cs.dropWhile isBlankChar).reverse.dropWhile isBlankChar).reverse

/-- The value of a hexadecimal digit. -/
def hexDigit (c : Char) : Option Nat :=
  let n := (upperChar c).toNat
  if 48 ≤ n ∧ n ≤ 57 then some (n - 48)
  else if 65 ≤ n ∧ n ≤ 70 then some (n - 55)
  else none

/-- Digits read in base `base`, after `acc`. -/
def digitsFrom (base : Nat) (acc : Nat) : List Char → Option Nat
  | [] => some acc
  | c :: cs =>
    match hexDigit c with
    | some d => if d < base then digitsFrom base (acc * base + d) cs else none
    | none => none

/-- A nonempty numeral in the base. -/
def numeral (base : Nat) (cs : List Char) : Option Nat := if cs.isEmpty then none else digitsFrom base 0 cs

/-- `0x...` as a hexadecimal number below `2^width`, or a decimal numeral below it. -/
def readNumber (width : Nat) (cs : List Char) : Option Nat :=
  let v :=
    match cs with
    | '0' :: 'x' :: digits => numeral 16 digits
    | '0' :: 'X' :: digits => numeral 16 digits
    | _ => numeral 10 cs
  v.bind fun n => if n < 2 ^ width then some n else none

/-- The parts of a text between separators. -/
def splitOn (sep : Char) : List Char → List (List Char)
  | [] => [[]]
  | c :: cs =>
    if c == sep then [] :: splitOn sep cs
    else
      match splitOn sep cs with
      | [] => [[c]]
      | p :: ps => (c :: p) :: ps

/-- Every element read, or none. -/
def readAll (f : List Char → Option Byte) : List (List Char) → Option (List Byte)
  | [] => some []
  | p :: ps =>
    match f p, readAll f ps with
    | some b, some bs => some (b :: bs)
    | _, _ => none

/-- A byte of a byte list: one or two hexadecimal digits (R55). -/
def readByte (cs : List Char) : Option Byte :=
  let t := trimChars cs
  if t.length ≤ 2 then (numeral 16 t).map fun n => BitVec.ofNat 8 n else none

/-- The opening brace of a byte list. -/
def braceOpen : Char := Char.ofNat 123

/-- The closing brace of a byte list. -/
def braceClose : Char := Char.ofNat 125

/-- The bytes between braces, none where the text is no byte list. -/
def readBraced (cs : List Char) : Option (List Byte) :=
  match trimChars cs with
  | [] => none
  | c :: rest =>
    match rest.reverse with
    | [] => none
    | d :: inner =>
      let body := trimChars inner.reverse
      if (c == braceOpen && d == braceClose) = false then none
      else if body.isEmpty then some []
      else readAll readByte (splitOn ',' body)

/-- A `data` operand (R55). An empty byte list is one, as in the `FINAL 0` line of R56's ABSORB; R55 leaves it open (DESIGN
CHOICE, notes/assumptions/12.md). -/
def readData (cs : List Char) : Option DataOperand :=
  match readBraced cs with
  | some bs => some (.bytes bs)
  | none => (readNumber 64 (trimChars cs)).map fun n => .number (BitVec.ofNat 64 n)

/-- Sixteen key bytes. -/
def readKey (cs : List Char) : Option KeyBuf :=
  match readBraced cs with
  | some bs => if h : bs.toArray.size = 16 then some ⟨bs.toArray, h⟩ else none
  | none => none

/-- The text up to and with the first closing brace, and the text after it. -/
def splitBrace : List Char → List Char × List Char
  | [] => ([], [])
  | c :: cs =>
    if c == braceClose then ([c], cs)
    else
      let (a, b) := splitBrace cs
      (c :: a, b)

/-- The operands of HASH: a key, a comma, a message (R56). -/
def readHash (args : List Char) : Option Pseudo :=
  let (a, b) := splitBrace args
  match trimChars b with
  | ',' :: rest =>
    match readKey a, readBraced rest with
    | some key, some msg => some (.hash key msg)
    | _, _ => none
  | _ => none

/-- The text before the first comma, and the text after it if there is one. -/
def splitComma : List Char → List Char × Option (List Char)
  | [] => ([], none)
  | c :: cs =>
    if c == ',' then ([], some cs)
    else
      let (a, b) := splitComma cs
      (c :: a, b)

/-- The word up to the first blank, and the rest. -/
def splitBlank : List Char → List Char × List Char
  | [] => ([], [])
  | c :: cs =>
    if isBlankChar c then ([], cs)
    else
      let (a, b) := splitBlank cs
      (c :: a, b)

/-- A byte count or CMD word, a comma, and a `data` operand. -/
def readPair (width : Nat) (args : List Char) : Option (Nat × DataOperand) :=
  match splitComma args with
  | (a, some b) =>
    match readNumber width (trimChars a), readData b with
    | some n, some d => some (n, d)
    | _, _ => none
  | (_, none) => none

/-- What a line of text is. -/
inductive TextLine where
  /-- Nothing but blanks and a comment. -/
  | blank
  | code (l : AsmLine)
  | pseudo (p : Pseudo)
  | malformed
  deriving DecidableEq, Repr

/-- The line, or `malformed`. -/
def TextLine.ofOption : Option AsmLine → TextLine
  | some l => .code l
  | none => .malformed

/-- The pseudo-command, or `malformed`. -/
def TextLine.ofPseudo : Option Pseudo → TextLine
  | some p => .pseudo p
  | none => .malformed

/-- A line with no operand. -/
def bareLine (l : AsmLine) (args : List Char) : TextLine := if args.isEmpty then .code l else .malformed

/-- FINAL's operands: the count, and the data it may leave out (R54). -/
def readFinal (args : List Char) : Option AsmLine :=
  match splitComma args with
  | (a, some b) =>
    match readNumber 32 (trimChars a), readData b with
    | some n, some d => some (.final n (some d))
    | _, _ => none
  | (a, none) => (readNumber 32 (trimChars a)).map fun n => .final n none

/-- Read one line: a mnemonic and then its operands, separated by commas (R54); or a pseudo-command with its key and message
as byte lists (R56). -/
def readLine (text : String) : TextLine :=
  let body := trimChars (dropComment text.toList)
  if body.isEmpty then .blank
  else
    let (word, rest) := splitBlank body
    let args := trimChars rest
    let mnemonic := word.map upperChar
    if mnemonic = "NOP".toList then bareLine .nop args
    else if mnemonic = "KEY".toList then .ofOption ((readPair 32 args).map fun x => .key x.1 x.2)
    else if mnemonic = "KEY.S".toList then .ofOption ((readPair 32 args).map fun x => .keyS x.1 x.2)
    else if mnemonic = "INIT".toList then bareLine .init args
    else if mnemonic = "BLOCK".toList then .ofOption ((readData args).map .block)
    else if mnemonic = "FINAL".toList then .ofOption (readFinal args)
    else if mnemonic = "CLR".toList then bareLine .clr args
    else if mnemonic = ".WORD".toList then
      .ofOption ((readPair 32 args).map fun x => .word (BitVec.ofNat 32 x.1) x.2)
    else if mnemonic = "LOADKEY".toList then .ofPseudo ((readKey args).map .loadKey)
    else if mnemonic = "ABSORB".toList then .ofPseudo ((readBraced args).map .absorb)
    else if mnemonic = "HASH".toList then .ofPseudo (readHash args)
    else if mnemonic = "ABORT".toList then (if args.isEmpty then .pseudo .abort else .malformed)
    else .malformed

end Sys2Proof.Machine
end

