-- ==== Sys2Proof/Machine/Engine.lean ====
section
/-! DEFINITION. The round engine beneath the datapath functions: SipRound as the ten statements of spec/40_datapath.md R65, an
engine that completes several rounds per clock (R67), and a metered datapath that counts rounds and compressions (R73 and
spec/70_reset_and_hazards.md R142). -/

namespace Sys2Proof.Machine

/-- The name of a word of the permutation state. -/
inductive PermReg where
  | v0
  | v1
  | v2
  | v3
  deriving DecidableEq, Repr

/-- The value of the named word. -/
def Perm.read (x : Perm) : PermReg → Word
  | .v0 => x.v0
  | .v1 => x.v1
  | .v2 => x.v2
  | .v3 => x.v3

/-- The state with the named word replaced. -/
def Perm.write (x : Perm) (r : PermReg) (w : Word) : Perm :=
  match r with
  | .v0 => { x with v0 := w }
  | .v1 => { x with v1 := w }
  | .v2 => { x with v2 := w }
  | .v3 => { x with v3 := w }

/-- The three statement forms of R65. -/
inductive RoundStmt where
  /-- `dst += src`. -/
  | add (dst src : PermReg)
  /-- `dst = rotate_left(dst, r) ^ src`. -/
  | rotXor (dst : PermReg) (r : Nat) (src : PermReg)
  /-- `dst = rotate_left(dst, r)`. -/
  | rot (dst : PermReg) (r : Nat)
  deriving DecidableEq, Repr

/-- The effect of one statement: it reads the values the statements before it wrote (R8). -/
def RoundStmt.run (x : Perm) : RoundStmt → Perm
  | .add dst src => x.write dst (add64 (x.read dst) (x.read src))
  | .rotXor dst r src => x.write dst (rotl64 (x.read dst) r ^^^ x.read src)
  | .rot dst r => x.write dst (rotl64 (x.read dst) r)

/-- Statements 1 to 5 of R65, the first half-round. -/
def firstHalfStmts : List RoundStmt :=
  [.add .v0 .v1, .add .v2 .v3, .rotXor .v1 13 .v0, .rotXor .v3 16 .v2, .rot .v0 32]

/-- Statements 6 to 10 of R65, the second half-round. -/
def secondHalfStmts : List RoundStmt :=
  [.add .v2 .v1, .add .v0 .v3, .rotXor .v1 17 .v2, .rotXor .v3 21 .v0, .rot .v2 32]

/-- Statements in order (R8). -/
def runStmts (stmts : List RoundStmt) (x : Perm) : Perm := stmts.foldl RoundStmt.run x

/-- The first half-round. -/
def firstHalf (x : Perm) : Perm := runStmts firstHalfStmts x

/-- The second half-round. -/
def secondHalf (x : Perm) : Perm := runStmts secondHalfStmts x

/-- The round engine in the middle of a command: its state and the rounds still to run. -/
structure EngineState where
  v : Perm
  left : Nat
  deriving DecidableEq, Repr

/-- One clock of an engine that completes up to ROUNDS_PER_CYCLE rounds (R67; DESIGN CHOICE, notes/assumptions/13.md). -/
def EngineState.clock (cfg : Config.Params) (e : EngineState) : EngineState :=
  let k := min cfg.roundsPerCycle e.left
  ⟨sipRounds k e.v, e.left - k⟩

/-- `n` clocks of the engine. -/
def EngineState.clocks (cfg : Config.Params) : Nat → EngineState → EngineState
  | 0, e => e
  | n + 1, e => EngineState.clocks cfg n (e.clock cfg)

/-- A datapath value with the rounds and compressions spent on it (DESIGN CHOICE, notes/assumptions/18.md). -/
structure Metered where
  v : Perm
  rounds : Nat
  compressions : Nat
  deriving DecidableEq, Repr

/-- A value on which nothing has been spent. -/
def Metered.start (x : Perm) : Metered := ⟨x, 0, 0⟩

/-- SipRound, counted. -/
def Metered.round (y : Metered) : Metered := { y with v := sipRound y.v, rounds := y.rounds + 1 }

/-- `n` SipRounds, counted. -/
def Metered.roundN : Nat → Metered → Metered
  | 0, y => y
  | n + 1, y => Metered.roundN n y.round

/-- Compress (R68), counted. -/
def Metered.compress (m : Word) (y : Metered) : Metered :=
  let z := Metered.roundN Config.compressionRounds { y with v := { y.v with v3 := y.v.v3 ^^^ m } }
  { z with v := { z.v with v0 := z.v.v0 ^^^ m }, compressions := z.compressions + 1 }

/-- Finalize (R70), counted. -/
def Metered.finalize (y : Metered) : Metered :=
  Metered.roundN Config.finalizationRounds { y with v := { y.v with v2 := y.v.v2 ^^^ 0xff#64 } }

/-- Stage 2 of R72, counted. -/
def Metered.absorbBlocks (msg : List Byte) (y : Metered) : Nat → Metered
  | 0 => y
  | k + 1 => (Metered.absorbBlocks msg y k).compress (chunkWord msg k)

/-- SipHash24 (R72) up to the extraction, counted. -/
def Metered.sipHash24 (key : KeyBuf) (msg : List Byte) : Metered :=
  let full := msg.length / 8
  let y := Metered.absorbBlocks msg (Metered.start (initState (keyWord0 key) (keyWord1 key))) full
  (y.compress (pad (chunkWord msg full) (msg.length % 8) (BitVec.ofNat 8 msg.length))).finalize

/-- The metered datapath work of a command that passes the gate and its checks (R142). -/
def datapathWork (i : Instr) (s : State) : Metered :=
  match i with
  | .nop => Metered.start s.v
  | .key _ _ _ => Metered.start s.v
  | .init => Metered.start s.v
  | .block data => (Metered.start s.v).compress data
  | .final n data =>
    ((Metered.start s.v).compress (pad data n (finalLength n s))).finalize
  | .clr => Metered.start s.v

/-- The command runs its body: it is neither gated nor refused by a check (R113, R115, R81). -/
def runsBody (i : Instr) (s : State) : Bool :=
  match i with
  | .nop => decide (s.err = .none)
  | .key _ _ _ => decide (s.err = .none) && decide (s.phase ≠ .absorb)
  | .init => decide (s.err = .none) && decide (s.phase ≠ .absorb) && decide (s.klen.toNat = Config.keyBytes)
  | .block _ => decide (s.err = .none) && decide (s.phase = .absorb)
  | .final _ _ => decide (s.err = .none) && decide (s.phase = .absorb)
  | .clr => true

/-- The SipRounds a command runs; an erroring or gated command, and an illegal word, run none (R142). -/
def commandRounds (c : Command) (s : State) : Nat :=
  match decode c with
  | .instr i => if runsBody i s then (datapathWork i s).rounds else 0
  | .illegal _ => 0

end Sys2Proof.Machine
end

