-- ==== Sys2Proof/Machine/Platform.lean ====
section
/-! DEFINITION. A platform of N_CORES cores (spec/60_exceptions.md R121): each has its own state, and a command to one is a
step of that one alone. -/

namespace Sys2Proof.Machine

/-- `n` cores, which share no state. -/
abbrev Platform (n : Nat) := Vector State n

/-- The N_CORES cores of the platform after reset; each comes out of reset independently. -/
def Platform.reset (cfg : Config.Params) : Platform cfg.nCores := Vector.replicate cfg.nCores State.reset

/-- Core `k` takes a command step; the others do not move (DEDUCED, notes/assumptions/16.md). -/
def Platform.stepCore {n : Nat} (p : Platform n) (k : Fin n) : Host.Outcome (Platform n) Fault Refusal :=
  match step p[k] with
  | .next t => .next (p.set k t)
  | .fault r => .fault r
  | .refused r => .refused r

end Sys2Proof.Machine
end

