-- ==== Sys2Proof/Machine/Ports.lean ====
section
/-! DEFINITION. The core at its ports, clock edge by clock edge (spec/20_memory.md R30, R41; spec/70_reset_and_hazards.md
R130, R131, R134, R135, R137, R140). The latencies and the reset style are parameters (spec/00_scope.md R4). -/

namespace Sys2Proof.Machine

/-- The inputs the core samples at a clock edge (R30). -/
structure PortIn where
  rst : Bool
  cmdValid : Bool
  cmdWord : Word32
  cmdData : Word
  deriving DecidableEq, Repr

/-- The command on the input ports. -/
def PortIn.command (p : PortIn) : Command := ⟨p.cmdWord, p.cmdData⟩

/-- The outputs the host samples (R30). -/
structure PortOut where
  cmdReady : Bool
  status : Word32
  digest : Word
  deriving DecidableEq, Repr

/-- The outputs are functions of the state alone, so sampling them has no effect (R40). -/
def outputs (s : State) : PortOut := ⟨cmdReady s, status s, digestPort s⟩

/-- LAT of an instruction (R140). -/
def instrLatency (lat : Config.Latencies) : Instr → Nat
  | .nop => lat.nop
  | .key _ _ _ => lat.key
  | .init => lat.init
  | .block _ => lat.block
  | .final _ _ => lat.final
  | .clr => lat.clr

/-- The cycles of a command from the state it is accepted in: LAT_ILLEGAL for an illegal word, and LAT_NOP for one ignored
under the error gate (R140; for a command that errs and a gated CLR: DEDUCED, notes/assumptions/9.md). -/
def latency (lat : Config.Latencies) (c : Command) (s : State) : Nat :=
  match decode c with
  | .instr i => if s.err = .none ∨ i = .clr then instrLatency lat i else lat.nop
  | .illegal _ => if s.err = .none then lat.illegal else lat.nop

/-- The core takes the command offered at this edge: `cmd_valid` and `cmd_ready` are 1 and `rst` is 0 (R41). -/
def accepts (p : PortIn) (s : State) : Bool := p.cmdValid && cmdReady s && !p.rst

/-- One rising edge of `clk`. Under `rst` all registers take their reset values (R130). A command in flight counts down its
latency and takes effect at the completion edge; else an offered command is accepted (R41). -/
def clockEdge (lat : Config.Latencies) (p : PortIn) (s : State) : Result :=
  if p.rst then .next s.resetCore
  else if s.busy then
    if s.cyclesLeft ≤ 1 then runCommand s.latch s.retire
    else .next s.countDown
  else if p.cmdValid then .next (s.accept p.command (latency lat p.command s))
  else .next s

/-- Between edges, an asynchronous reset acts at once (R131; DEDUCED, notes/assumptions/14.md). -/
def settle (style : Config.ResetStyle) (p : PortIn) (s : State) : State :=
  match style with
  | .synchronous => s
  | .asynchronous => if p.rst then s.resetCore else s

/-- One clock cycle: the inputs settle, then the edge samples them. -/
def cycle (cfg : Config.Params) (p : PortIn) (s : State) : Result :=
  clockEdge cfg.lat p (settle cfg.resetStyle p s)

/-- The core at its ports, with the command the host offered at the last edge and the core did not take (R134; DESIGN CHOICE,
notes/assumptions/8.md). -/
structure PortState where
  core : State
  held : Option Command
  deriving DecidableEq, Repr

/-- The ports after reset. -/
def PortState.reset : PortState := ⟨State.reset, none⟩

/-- The host breaks R134: it still offers a command, but not the one it has to hold. A host that withdraws its offer has
issued no command (R135; DEDUCED, notes/assumptions/7.md). -/
def breaksHandshake (held : Option Command) (p : PortIn) : Bool :=
  match held with
  | none => false
  | some c => p.cmdValid && decide (p.command ≠ c)

/-- What the host has to hold after this edge: the command it offers while `cmd_ready` is 0 (R134). Reset ends every
offer. -/
def nextHeld (p : PortIn) (s : State) : Option Command :=
  if p.cmdValid && s.busy && !p.rst then some p.command else none

/-- One clock cycle at the ports, with any host. A broken handshake is refused (spec/93_implementation_defined.md U4), but
not under `rst`, when no command is accepted. -/
def portCycle (cfg : Config.Params) (p : PortIn) (s : PortState) : Host.Outcome PortState Fault Refusal :=
  if !p.rst && breaksHandshake s.held p then .refused .handshakeBroken
  else
    match cycle cfg p s.core with
    | .next t => .next ⟨t, nextHeld p s.core⟩
    | .fault r => .fault r
    | .refused r => .refused r

/-- What a host that has `program` still to present drives: its next command if it chooses to offer one, else nothing. -/
def hostDrive (offer : Bool) (s : State) : PortIn :=
  match s.program with
  | [] => ⟨false, false, 0#32, 0#64⟩
  | c :: _ => ⟨false, offer, c.cmd, c.data⟩

/-- The host goes on to its next command when the core takes the one it offers (R135). -/
def State.advanceHost (taken : Bool) (s : State) : State :=
  if taken then s.withProgram s.program.tail else s

/-- One clock cycle of core and host together, the host offering or pausing as `offer` says. -/
def systemCycle (cfg : Config.Params) (offer : Bool) (s : State) : Result :=
  let p := hostDrive offer s
  cycle cfg p (s.advanceHost (accepts p s))

/-- Cycles of core and host, one for each element of the host's schedule. -/
def systemCycles (cfg : Config.Params) : List Bool → State → Result
  | [], s => .next s
  | offer :: rest, s =>
    match systemCycle cfg offer s with
    | .next t => systemCycles cfg rest t
    | .fault r => .fault r
    | .refused r => .refused r

/-- The command-level state a port-level state stands for: the command in flight, if any, taken as completed (R41). -/
def commandView (s : State) : Result :=
  if s.busy then runCommand s.latch s.retire else .next s

end Sys2Proof.Machine
end

