-- ==== Sys2Proof/Safety.lean ====
section
/-! DEFINITION. The terms claims are made in: the invariants of spec/10_state.md R25, the launch premises of
spec/70_reset_and_hazards.md R145, and what of the state an observer at the ports sees. -/

namespace Sys2Proof.Machine

/-- The invariants of R25 that the types do not already give. (PHASE is never 3, ERR is at most 3 and KLEN at most 31 by
their types.) -/
structure State.Sound (s : State) : Prop where
  absorb_klen : s.phase = .absorb → s.klen = 16#5
  v_zero : s.phase ≠ .absorb → s.v = Perm.zero
  m_zero : s.phase ≠ .absorb → s.m = 0#64
  digest_zero : s.phase ≠ .finished → s.digest = 0#64

/-- No command is in flight and nothing of one is left over (R25). -/
structure State.AtBoundary (s : State) : Prop where
  not_busy : s.busy = false
  latch_empty : s.latch = emptyLatch
  no_cycles : s.cyclesLeft = 0

/-- Nothing of a command survives its completion (R25): with BUSY = 0 the latch is empty. -/
def State.LatchClean (s : State) : Prop := s.busy = false → s.AtBoundary

/-- KEYBUF positions not yet counted by KLEN hold 0: KEY fills the buffer from the front after a clear (R80). -/
def State.KeyTailZero (s : State) : Prop :=
  ∀ i, i < 16 → s.klen.toNat ≤ i → keyByte s.keybuf i = 0#8

/-- Every recorded error has set the fault mark (R145). -/
def State.ErrMarked (s : State) : Prop := s.err ≠ .none → s.faulted = true

/-- `ResetLaunch` (R145): the state of R130, whatever the host is about to present. -/
def State.ResetLaunch (s : State) : Prop := s = { State.reset with program := s.program }

/-- `CleanEntry` (R145). -/
structure State.CleanEntry (s : State) : Prop where
  boundary : s.AtBoundary
  no_error : s.err = .none
  sound : s.Sound
  unmarked : s.faulted = false

/-- `KeyedEntry(k)` (R145). -/
structure State.KeyedEntry (k : KeyBuf) (s : State) : Prop where
  clean : s.CleanEntry
  klen_full : s.klen = 16#5
  key_loaded : s.keybuf = k
  not_open : s.phase ≠ .absorb

/-- `NoFaultRecorded` (R145). -/
def State.NoFaultRecorded (s : State) : Prop := s.faulted = false

/-- Two states that differ at most in what no command and no port reads out: V0..V3, M and KEYBUF (R13, R119). -/
structure State.SamePublic (s t : State) : Prop where
  klen : s.klen = t.klen
  len8 : s.len8 = t.len8
  phase : s.phase = t.phase
  err : s.err = t.err
  digest : s.digest = t.digest
  busy : s.busy = t.busy
  latch : s.latch = t.latch
  cyclesLeft : s.cyclesLeft = t.cyclesLeft
  faulted : s.faulted = t.faulted
  program : s.program = t.program

end Sys2Proof.Machine
end

