-- ==== Sys2Proof/Certificates/Slice0/Obligations.lean ====
section
/-! DEFINITION. The statements about the core, from the numbered rules of spec/. -/

open Sys2Proof Sys2Proof.Machine

/-- For every DATA, the CMD words of the decode table of 95_test_vectors.md T34 decode to the command, or to ILLEGAL,
as the table says: NOP, KEY with S and nk, INIT, BLOCK, FINAL with n, CLR, and words with a reserved OP, a reserved
bit, S outside KEY or CNT outside KEY and FINAL. (30_encoding.md section 3, 95_test_vectors.md T34) -/
def Obligations.DecodeReadsSpecWords : Prop :=
  ∀ d : Word,
    decode ⟨0x00000000#32, d⟩ = .instr .nop ∧
    decode ⟨0x00000001#32, d⟩ = .instr (.key false 1 d) ∧
    decode ⟨0x00000011#32, d⟩ = .instr (.key true 1 d) ∧
    decode ⟨0x00000711#32, d⟩ = .instr (.key true 8 d) ∧
    decode ⟨0x00000601#32, d⟩ = .instr (.key false 7 d) ∧
    decode ⟨0x00000002#32, d⟩ = .instr .init ∧
    decode ⟨0x00000003#32, d⟩ = .instr (.block d) ∧
    decode ⟨0x00000004#32, d⟩ = .instr (.final 0 d) ∧
    decode ⟨0x00000704#32, d⟩ = .instr (.final 7 d) ∧
    decode ⟨0x00000005#32, d⟩ = .instr .clr ∧
    ∀ w ∈ [0x00000006#32, 0x0000000f#32, 0x00000010#32, 0x00000100#32, 0x00000801#32, 0x00000021#32,
        0x00000731#32, 0x00000012#32, 0x00000102#32, 0x00000014#32, 0x00000804#32, 0x80000002#32, 0xffffffff#32],
      ∃ why, decode ⟨w, d⟩ = .illegal why

/-- For every well-formed instruction, with every operand at every value its encoding admits, decode (encode i) is i.
(30_encoding.md section 1, 30_encoding.md section 2, 30_encoding.md section 3) -/
def Obligations.DecodeOfEncode : Prop :=
  ∀ i : Instr, i.wellFormed = true → decode (encode i) = .instr i

/-- If a command (CMD, DATA) decodes to an instruction, that instruction is well formed, its encoding has the same CMD
word, and the same DATA where the instruction uses DATA; where it does not, the encoding has DATA = 0. This last
clause is the model's own (DEDUCED, notes/assumptions/10.md): rule R54's table says "DATA any" for NOP, INIT and CLR.
(30_encoding.md section 1, 30_encoding.md section 2, 30_encoding.md section 3) -/
def Obligations.EncodeOfDecode : Prop :=
  ∀ (c : Command) (i : Instr), decode c = .instr i →
    i.wellFormed = true ∧ encode i = ⟨c.cmd, if i.usesData then c.data else 0#64⟩

/-- The rows are the six of R51. A word that decodes to an instruction matches the row of that instruction's mnemonic
and no other row; one that decodes to ILLEGAL matches no row. KEY takes S = CMD[4] and nk = CMD[10:8] + 1, FINAL takes
n = CMD[10:8]. (R51) -/
def Obligations.DecoderMatchesExactlyOneRow : Prop :=
  encodingRows.map (fun r => (r.mnemonic, r.pattern, r.mask)) =
      [("NOP", 0x00000000#32, 0xFFFFFFFF#32), ("KEY", 0x00000001#32, 0xFFFFF8EF#32),
       ("INIT", 0x00000002#32, 0xFFFFFFFF#32), ("BLOCK", 0x00000003#32, 0xFFFFFFFF#32),
       ("FINAL", 0x00000004#32, 0xFFFFF8FF#32), ("CLR", 0x00000005#32, 0xFFFFFFFF#32)] ∧
  (∀ (c : Command) (i : Instr), decode c = .instr i →
    ∃ r ∈ encodingRows, r.mnemonic = i.mnemonic ∧
      ∀ q ∈ encodingRows, (c.cmd &&& q.mask = q.pattern ↔ q = r)) ∧
  (∀ (c : Command) (why : IllegalReason), decode c = .illegal why →
    ∀ q ∈ encodingRows, c.cmd &&& q.mask ≠ q.pattern) ∧
  (∀ (c : Command) (st : Bool) (nk : Nat) (d : Word), decode c = .instr (.key st nk d) →
    st = c.cmd.getLsbD 4 ∧ nk = (c.cmd.extractLsb' 8 3).toNat + 1 ∧ d = c.data) ∧
  (∀ (c : Command) (d : Word), decode c = .instr (.block d) → d = c.data) ∧
  (∀ (c : Command) (n : Nat) (d : Word), decode c = .instr (.final n d) →
    n = (c.cmd.extractLsb' 8 3).toNat ∧ d = c.data)

/-- A command is illegal exactly if OP is 6 to 15, or a reserved bit (7:5, 31:11) is nonzero, or S is set outside KEY,
or CNT is nonzero outside KEY and FINAL, whatever DATA is; with ERR = NONE, executing it sets ERR to ILLEGAL_CMD and
the fault mark and nothing else; and 0x00000000 is the only word that decodes to NOP. (R52) -/
def Obligations.IllegalWordsAreThoseListed : Prop :=
  (∀ c : Command, (∃ why, decode c = .illegal why) ↔
    (6 ≤ (c.cmd.extractLsb' 0 4).toNat ∨ c.cmd &&& 0xFFFFF8E0#32 ≠ 0#32 ∨
      (c.cmd.getLsbD 4 = true ∧ c.cmd.extractLsb' 0 4 ≠ 1#4) ∨
      (c.cmd.extractLsb' 8 3 ≠ 0#3 ∧ c.cmd.extractLsb' 0 4 ≠ 1#4 ∧ c.cmd.extractLsb' 0 4 ≠ 4#4))) ∧
  (∀ (c : Command) (why : IllegalReason) (s : State), decode c = .illegal why → s.err = .none →
    runCommand c s = .next { s with err := .illegalCmd, faulted := true }) ∧
  (∀ c : Command, decode c = .instr .nop ↔ c.cmd = 0x00000000#32)

/-- NOP, INIT and CLR give the same result for every DATA. KEY with nk bytes gives the same result for two DATA values
that agree on lanes 0 to nk-1, and FINAL with n tail bytes for two that agree on lanes 0 to n-1, from every state.
(20_memory.md section 3, 30_encoding.md section 2, 93_implementation_defined.md U3) -/
def Obligations.IgnoredLanesHaveNoEffect : Prop :=
  (∀ (w : Word32) (d d' : Word) (s : State), w = 0x00000000#32 ∨ w = 0x00000002#32 ∨ w = 0x00000005#32 →
    runCommand ⟨w, d⟩ s = runCommand ⟨w, d'⟩ s) ∧
  (∀ (st : Bool) (nk : Nat) (d d' : Word) (s : State), 1 ≤ nk → nk ≤ 8 → (∀ j, j < nk → lane d j = lane d' j) →
    exec (.key st nk d) s = exec (.key st nk d') s) ∧
  (∀ (n : Nat) (d d' : Word) (s : State), n ≤ 7 → (∀ j, j < n → lane d j = lane d' j) →
    exec (.final n d) s = exec (.final n d') s)

/-- With BUSY = 0 and the host presenting c first, step is exec of the decoded instruction, or the illegal-word
effect, at the state with c taken off the host's program. With BUSY = 1 (a state only the port-level model reaches)
step completes the latched command at the state with BUSY and the latch cleared; that last part is the model's own
(DEDUCED, notes/assumptions/2.md), and so is the host's program in State (DESIGN CHOICE, notes/assumptions/1.md). With
no command presented the core keeps its state. (43_control.md (command step), 20_memory.md section 4,
70_reset_and_hazards.md section 5) -/
def Obligations.StepRunsDecodedCommand : Prop :=
  (∀ (s : State) (c : Command) (rest : List Command) (i : Instr),
    s.busy = false → s.program = c :: rest → decode c = .instr i →
    step s = exec i { s with program := rest }) ∧
  (∀ (s : State) (c : Command) (rest : List Command) (why : IllegalReason),
    s.busy = false → s.program = c :: rest → decode c = .illegal why →
    step s = execIllegal { s with program := rest }) ∧
  (∀ (s : State) (i : Instr), s.busy = true → decode s.latch = .instr i →
    step s = exec i { s with busy := false, latch := emptyLatch, cyclesLeft := 0 }) ∧
  (∀ (s : State) (why : IllegalReason), s.busy = true → decode s.latch = .illegal why →
    step s = execIllegal { s with busy := false, latch := emptyLatch, cyclesLeft := 0 }) ∧
  (∀ s : State, s.busy = false → s.program = [] → step s = .next s)

/-- If the bits w decode to the instruction i, a step from s with that word placed is exec of i at s with nothing in
flight. The numbering of a command's bits and the placing are the model's own (notes/assumptions/1.md,
notes/assumptions/6.md). (30_encoding.md section 1, 20_memory.md section 4) -/
def Obligations.FetchWordRunsNext : Prop :=
  ∀ (s : State) (nbits w : Nat) (i : Instr), decodeTableWord nbits w = some i →
    step (s.withFetchWord nbits w) = exec i { s with busy := false, latch := emptyLatch, cyclesLeft := 0 }

/-- For every command (CMD, DATA) and every state the command step answers a next state: no command faults, is refused
or hangs. (60_exceptions.md section 1, 70_reset_and_hazards.md section 5) -/
def Obligations.EveryCommandCompletes : Prop :=
  ∀ (c : Command) (s : State), ∃ t, runCommand c s = .next t

/-- In every state, gated or not, NOP answers the same state, whatever DATA is; CMD = 0x00000010 and 0x00000100 are
not NOP but ILLEGAL. (R101) -/
def Obligations.NopChangesNothing : Prop :=
  (∀ s : State, exec .nop s = .next s) ∧
  (∀ (d : Word) (s : State), runCommand ⟨0x00000000#32, d⟩ s = .next s) ∧
  (∀ d : Word, (∃ why, decode ⟨0x00000010#32, d⟩ = .illegal why) ∧ ∃ why, decode ⟨0x00000100#32, d⟩ = .illegal why)

/-- With ERR = NONE and PHASE not ABSORB, KEY with nk bytes (1 to 8) completes: with base = 0 if S = 1 and KLEN
otherwise, KEYBUF[i] becomes lane i - base for base <= i < base + nk, and otherwise 0 if S = 1 and its old value if S
= 0; KLEN becomes min(base + nk, 31); every other part of the state is unchanged. In ABSORB it raises SEQUENCE: only
ERR changes (and the fault mark is set). (R80) -/
def Obligations.KeyStoresBytesAndCounts : Prop :=
  ∀ (st : Bool) (nk : Nat) (d : Word) (s : State), 1 ≤ nk → nk ≤ 8 → s.err = .none →
    (s.phase ≠ .absorb →
      ∃ t, exec (.key st nk d) s = .next t ∧
        (∀ i, i < 16 → keyByte t.keybuf i =
          if (if st then 0 else s.klen.toNat) ≤ i ∧ i < (if st then 0 else s.klen.toNat) + nk then
            lane d (i - (if st then 0 else s.klen.toNat))
          else if st then 0#8 else keyByte s.keybuf i) ∧
        t.klen.toNat = min ((if st then 0 else s.klen.toNat) + nk) 31 ∧
        t = { s with keybuf := t.keybuf, klen := t.klen }) ∧
    (s.phase = .absorb →
      exec (.key st nk d) s = .next { s with err := .sequence, faulted := true })

/-- With ERR = NONE: in ABSORB, INIT raises SEQUENCE; else, with KLEN not 16, it raises KEY_LENGTH; else it sets
V0..V3 to InitState of the two little-endian key words, M, LEN8 and DIGEST to 0 and PHASE to ABSORB. Each time
everything else is unchanged (an error also sets the fault mark). (R81) -/
def Obligations.InitSeedsOrRefuses : Prop :=
  ∀ s : State, s.err = .none →
    (s.phase = .absorb → exec .init s = .next { s with err := .sequence, faulted := true }) ∧
    (s.phase ≠ .absorb → s.klen ≠ 16#5 → exec .init s = .next { s with err := .keyLength, faulted := true }) ∧
    (s.phase ≠ .absorb → s.klen = 16#5 →
      exec .init s = .next
        { s with
          v := initState (le64 fun i => keyByte s.keybuf i) (le64 fun i => keyByte s.keybuf (8 + i))
          m := 0#64
          len8 := 0#8
          digest := 0#64
          phase := .absorb })

/-- With ERR = NONE: in ABSORB, BLOCK sets M to DATA, V0..V3 to Compress of V0..V3 with DATA, and LEN8 to LEN8 + 8
modulo 256; in IDLE and FINISHED it raises SEQUENCE. Everything else is unchanged (an error also sets the fault mark).
(R90) -/
def Obligations.BlockAbsorbsOneWord : Prop :=
  ∀ (d : Word) (s : State), s.err = .none →
    (s.phase = .absorb →
      exec (.block d) s = .next
        { s with m := d, v := compress s.v d, len8 := BitVec.ofNat 8 ((s.len8.toNat + 8) % 256) }) ∧
    (s.phase ≠ .absorb → exec (.block d) s = .next { s with err := .sequence, faulted := true })

/-- With ERR = NONE and a tail of n bytes (0 to 7): in ABSORB, with L = LEN8 + n modulo 256, FINAL sets DIGEST to
Extract(Finalize(Compress(V, Pad(DATA, n, L)))), LEN8 to L, PHASE to FINISHED, and V0..V3 and M to 0; in IDLE and
FINISHED it raises SEQUENCE. Everything else is unchanged (an error also sets the fault mark). (R91) -/
def Obligations.FinalExtractsDigest : Prop :=
  ∀ (n : Nat) (d : Word) (s : State), n ≤ 7 → s.err = .none →
    (s.phase = .absorb →
      exec (.final n d) s = .next
        { s with
          digest := extract (finalize (compress s.v (pad d n (BitVec.ofNat 8 ((s.len8.toNat + n) % 256)))))
          len8 := BitVec.ofNat 8 ((s.len8.toNat + n) % 256)
          phase := .finished
          v := ⟨0#64, 0#64, 0#64, 0#64⟩
          m := 0#64 }) ∧
    (s.phase ≠ .absorb → exec (.final n d) s = .next { s with err := .sequence, faulted := true })

/-- In every state, error or not, CLR sets V0..V3, M, LEN8 and DIGEST to 0, PHASE to IDLE and ERR to NONE, and changes
nothing else: KEYBUF and KLEN are kept. (R102) -/
def Obligations.ClrRecoversAndKeepsKey : Prop :=
  ∀ s : State, exec .clr s = .next
    { s with
      v := ⟨0#64, 0#64, 0#64, 0#64⟩
      m := 0#64
      len8 := 0#8
      digest := 0#64
      phase := .idle
      err := .none }

/-- The codes are 0 to 3. From a state with ERR = NONE, a command ends with ILLEGAL_CMD exactly if its word is
illegal; with SEQUENCE exactly if it is KEY or INIT in ABSORB, or BLOCK or FINAL outside ABSORB; with KEY_LENGTH
exactly if it is INIT outside ABSORB with KLEN not 16. From a state with an error recorded, no new error is recorded.
(R110, R114, R115) -/
def Obligations.ErrorsRaisedExactlyWhen : Prop :=
  (ErrCode.none.code = 0#3 ∧ ErrCode.illegalCmd.code = 1#3 ∧ ErrCode.keyLength.code = 2#3 ∧
    ErrCode.sequence.code = 3#3) ∧
  (∀ (c : Command) (s : State), s.err = .none → ∃ t, runCommand c s = .next t ∧
    (t.err = .illegalCmd ↔ ∃ why, decode c = .illegal why) ∧
    (t.err = .sequence ↔
      (((∃ st nk d, decode c = .instr (.key st nk d)) ∨ decode c = .instr .init) ∧ s.phase = .absorb) ∨
      (((∃ d, decode c = .instr (.block d)) ∨ ∃ n d, decode c = .instr (.final n d)) ∧ s.phase ≠ .absorb)) ∧
    (t.err = .keyLength ↔ decode c = .instr .init ∧ s.phase ≠ .absorb ∧ s.klen ≠ 16#5)) ∧
  (∀ (c : Command) (s : State), s.err ≠ .none → ∃ t, runCommand c s = .next t ∧ (t.err = s.err ∨ t.err = .none))

/-- If a command is run with ERR = NONE and ends with an error, the new state is the old one with ERR changed (and the
fault mark set). When a step has run a command, raised an error or not, BUSY is 0. (R111) -/
def Obligations.ErrorsArePrecise : Prop :=
  (∀ (c : Command) (s t : State), runCommand c s = .next t → s.err = .none → t.err ≠ .none →
    t = { s with err := t.err, faulted := true }) ∧
  (∀ s t : State, step s = .next t → t.busy = false)

/-- From a state with ERR not NONE, any sequence of commands none of which has CMD = 0x00000005 leaves the whole state
as it was, so no digest appears; and a command with CMD = 0x00000005 is executed as CLR. (R113) -/
def Obligations.GateIgnoresAllButClr : Prop :=
  (∀ (cs : List Command) (s : State), s.err ≠ .none → (∀ c ∈ cs, c.cmd ≠ 0x00000005#32) →
    runCommands cs s = .next s) ∧
  (∀ (d : Word) (s : State), s.err ≠ .none → runCommand ⟨0x00000005#32, d⟩ s = exec .clr s)

/-- From a state with an error recorded, every command but CLR leaves the whole state unchanged, so no second error is
recorded, and CLR sets ERR to NONE and PHASE to IDLE and keeps the key. Reset sets ERR to NONE and PHASE to IDLE and
clears the key. (R116) -/
def Obligations.OnlyClrOrResetRecovers : Prop :=
  (∀ (c : Command) (s t : State), s.err ≠ .none → runCommand c s = .next t →
    (decode c ≠ .instr .clr → t = s) ∧
    (decode c = .instr .clr → t.err = .none ∧ t.phase = .idle ∧ t.keybuf = s.keybuf ∧ t.klen = s.klen)) ∧
  (∀ s : State, s.resetCore.err = .none ∧ s.resetCore.phase = .idle ∧ s.resetCore.klen = 0#5 ∧
    ∀ i, i < 16 → keyByte s.resetCore.keybuf i = 0#8)

/-- PHASE has the codes 0, 1, 2. A command that raises an error or is ignored leaves PHASE unchanged. Otherwise INIT
goes from IDLE or FINISHED to ABSORB, BLOCK from ABSORB to ABSORB, FINAL from ABSORB to FINISHED, CLR from any phase
to IDLE, and NOP and KEY leave PHASE unchanged. Reset goes to IDLE. (R16) -/
def Obligations.PhaseTransitions : Prop :=
  (Phase.idle.code = 0#2 ∧ Phase.absorb.code = 1#2 ∧ Phase.finished.code = 2#2) ∧
  (∀ (c : Command) (s t : State), runCommand c s = .next t → t.err ≠ .none → t.phase = s.phase) ∧
  (∀ (c : Command) (s t : State), runCommand c s = .next t → t.err = .none →
    (decode c = .instr .init → s.phase ≠ .absorb ∧ t.phase = .absorb) ∧
    (∀ d, decode c = .instr (.block d) → s.phase = .absorb ∧ t.phase = .absorb) ∧
    (∀ n d, decode c = .instr (.final n d) → s.phase = .absorb ∧ t.phase = .finished) ∧
    (decode c = .instr .clr → t.phase = .idle) ∧
    (decode c = .instr .nop → t.phase = s.phase) ∧
    (∀ st nk d, decode c = .instr (.key st nk d) → t.phase = s.phase)) ∧
  (∀ s : State, s.resetCore.phase = .idle)

/-- Whatever the command and the state: V0..V3, M and LEN8 change only under INIT, BLOCK, FINAL and CLR; KEYBUF and
KLEN only under KEY; DIGEST only under INIT, FINAL and CLR; PHASE only under INIT, FINAL and CLR; ERR goes back to
NONE only under CLR; and no command changes BUSY, the latch, the countdown or the host's program. (10_state.md section
2, 10_state.md section 3, 10_state.md section 4, 43_control.md (command step)) -/
def Obligations.RegistersHaveTheirWriters : Prop :=
  ∀ (c : Command) (s t : State), runCommand c s = .next t →
    (t.v ≠ s.v ∨ t.m ≠ s.m ∨ t.len8 ≠ s.len8 →
      decode c = .instr .init ∨ (∃ d, decode c = .instr (.block d)) ∨ (∃ n d, decode c = .instr (.final n d)) ∨
      decode c = .instr .clr) ∧
    (t.keybuf ≠ s.keybuf ∨ t.klen ≠ s.klen → ∃ st nk d, decode c = .instr (.key st nk d)) ∧
    (t.digest ≠ s.digest ∨ t.phase ≠ s.phase →
      decode c = .instr .init ∨ (∃ n d, decode c = .instr (.final n d)) ∨ decode c = .instr .clr) ∧
    (s.err ≠ .none → t.err = .none → decode c = .instr .clr) ∧
    t.busy = s.busy ∧ t.latch = s.latch ∧ t.cyclesLeft = s.cyclesLeft ∧ t.program = s.program

/-- From every state that satisfies them, whatever command is next or in flight, a step keeps: PHASE = ABSORB implies
KLEN = 16; outside ABSORB, V0..V3 and M are 0; outside FINISHED, DIGEST is 0; and with BUSY = 0 nothing of a command
is left in the latch. PHASE is never 3, ERR at most 3 and KLEN at most 31. These are the invariants of rule R25; that
an empty latch and countdown are 0 (DEDUCED, notes/assumptions/4.md) and that a step with BUSY = 1 completes the
command in flight (DEDUCED, notes/assumptions/2.md) are the model's own. (10_state.md section 5) -/
def Obligations.StepKeepsVisibleInvariants : Prop :=
  ∀ s t : State, s.Sound → s.LatchClean → step s = .next t →
    t.Sound ∧ t.LatchClean ∧ t.phase.code ≠ 3#2 ∧ t.err.code.toNat ≤ 3 ∧ t.klen.toNat ≤ 31

/-- The reset state satisfies the invariants of the visible state, holds nothing in flight, has zeros in every
uncounted key position and no unmarked error; and every state of ResetLaunch satisfies CleanEntry. The latch and
countdown at 0 are the model's own (DEDUCED, notes/assumptions/4.md). (10_state.md section 5, 70_reset_and_hazards.md
section 1, 70_reset_and_hazards.md section 5) -/
def Obligations.ResetSatisfiesInvariants : Prop :=
  State.reset.Sound ∧ State.reset.LatchClean ∧ State.reset.KeyTailZero ∧ State.reset.ErrMarked ∧
  ∀ s : State, s.ResetLaunch → s.CleanEntry

/-- From every state that satisfies the invariants of the visible state, one clock cycle with any inputs (rst, an
offer, a pause, a command in flight), any latencies and either reset style gives a state that satisfies them. The
latch and countdown at 0 with BUSY = 0, an asynchronous reset acting before the edge, and the refusal of a broken
handshake, of which this says nothing, are the model's own (notes/assumptions/4.md, 14.md and 8.md). (10_state.md
section 5, 20_memory.md section 4, 70_reset_and_hazards.md section 1) -/
def Obligations.PortsKeepVisibleInvariants : Prop :=
  ∀ (cfg : Config.Params) (p : PortIn) (s t : PortState), s.core.Sound → s.core.LatchClean →
    portCycle cfg p s = .next t → t.core.Sound ∧ t.core.LatchClean

/-- If every KEYBUF position at or beyond KLEN holds 0, then so it is after a step: a key loaded in part never mixes
with bytes of an older key. (41_key_init.md (KEY), 10_state.md section 3) -/
def Obligations.KeyBufferFillsFromFront : Prop :=
  ∀ s t : State, s.KeyTailZero → step s = .next t → t.KeyTailZero

/-- After a command the mark is set exactly if it was set before or the command raised an error (ERR was NONE and is
not any more). A step keeps the invariant that a recorded error implies the mark. Every reset clears the mark: the
spec does not say so in words, and this clause is the model's own (DEDUCED, notes/assumptions/5.md).
(70_reset_and_hazards.md section 5, 60_exceptions.md section 2) -/
def Obligations.FaultMarkRecordsEveryError : Prop :=
  (∀ (c : Command) (s t : State), runCommand c s = .next t →
    (t.faulted = true ↔ s.faulted = true ∨ (s.err = .none ∧ t.err ≠ .none))) ∧
  (∀ s t : State, s.ErrMarked → step s = .next t → t.ErrMarked) ∧
  (∀ s : State, s.resetCore.faulted = false)

/-- In every state, STATUS[0] is BUSY, STATUS[2:1] PHASE, STATUS[6:4] ERR, STATUS[12:8] KLEN, STATUS[23:16] LEN8, and
bits 3, 7, 15:13 and 31:24 are 0. (R20) -/
def Obligations.StatusFieldsInPlace : Prop :=
  ∀ s : State,
    (status s).extractLsb' 0 1 = BitVec.ofBool s.busy ∧
    (status s).extractLsb' 1 2 = s.phase.code ∧
    (status s).extractLsb' 3 1 = 0#1 ∧
    (status s).extractLsb' 4 3 = s.err.code ∧
    (status s).extractLsb' 7 1 = 0#1 ∧
    (status s).extractLsb' 8 5 = s.klen ∧
    (status s).extractLsb' 13 3 = 0#3 ∧
    (status s).extractLsb' 16 8 = s.len8 ∧
    (status s).extractLsb' 24 8 = 0#8

/-- With rst asserted a clock cycle, from any state and with any parameters, gives V0..V3 = M = 0, KEYBUF and KLEN and
LEN8 0, PHASE IDLE, ERR NONE, DIGEST 0, BUSY 0, the latch empty and the fault mark clear; an asynchronous reset gives
this before the edge; STATUS and digest are then 0 and cmd_ready is 1; and no command is accepted under rst (rules
R130 and R131). Four clauses are the model's own and not the spec's words: the latch and the countdown at 0 (DEDUCED,
notes/assumptions/4.md), the fault mark clear (DEDUCED, notes/assumptions/5.md), an asynchronous reset acting before
the edge (DEDUCED, notes/assumptions/14.md), and the host's program, which is not the core's, staying as it was
(DESIGN CHOICE, notes/assumptions/1.md). (70_reset_and_hazards.md section 1, 10_state.md section 5,
70_reset_and_hazards.md section 5) -/
def Obligations.ResetGivesResetValues : Prop :=
  (∀ (cfg : Config.Params) (p : PortIn) (s : State), p.rst = true →
    cycle cfg p s = .next s.resetCore ∧ accepts p s = false ∧ settle .asynchronous p s = s.resetCore ∧
    outputs s.resetCore = ⟨true, 0#32, 0#64⟩) ∧
  (∀ s : State,
    s.resetCore.v = ⟨0#64, 0#64, 0#64, 0#64⟩ ∧ s.resetCore.m = 0#64 ∧
    (∀ i, i < 16 → keyByte s.resetCore.keybuf i = 0#8) ∧ s.resetCore.klen = 0#5 ∧ s.resetCore.len8 = 0#8 ∧
    s.resetCore.phase = .idle ∧ s.resetCore.err = .none ∧ s.resetCore.digest = 0#64 ∧ s.resetCore.busy = false ∧
    s.resetCore.AtBoundary ∧ s.resetCore.faulted = false ∧ s.resetCore.program = s.program) ∧
  State.reset.resetCore = State.reset

/-- For all 64-bit a and b, add64(a, b) as a number is (a + b) mod 2^64. (R60) -/
def Obligations.AdditionWrapsSilently : Prop :=
  ∀ a b : Word, (add64 a b).toNat = (a.toNat + b.toNat) % 2 ^ 64

/-- For every x and every r with 0 < r < 64, rotl64(x, r) is (x << r) | (x >> (64 - r)), and bit i of it is bit (i -
r) mod 64 of x. Every rotation amount in the ten statements of SipRound is one of 13, 16, 17, 21 and 32. (R61) -/
def Obligations.RotationMovesEachBit : Prop :=
  (∀ (x : Word) (r : Nat), 0 < r → r < 64 →
    rotl64 x r = (x <<< r) ||| (x >>> (64 - r)) ∧
    ∀ i, i < 64 → (rotl64 x r).getLsbD i = x.getLsbD ((i + 64 - r) % 64)) ∧
  (∀ st ∈ firstHalfStmts ++ secondHalfStmts, ∀ (dst src : PermReg) (r : Nat),
    st = .rotXor dst r src ∨ st = .rot dst r → r ∈ [13, 16, 17, 21, 32])

/-- For all bytes b0 to b7, LE64 as a number is the sum of b_i * 256^i, and lane i of it is b_i; for every DATA, LE64
of its lanes is DATA. (R32) -/
def Obligations.LittleEndianWords : Prop :=
  (∀ b : Nat → Byte, (le64 b).toNat =
    (b 0).toNat + (b 1).toNat * 256 + (b 2).toNat * 256 ^ 2 + (b 3).toNat * 256 ^ 3 + (b 4).toNat * 256 ^ 4 +
      (b 5).toNat * 256 ^ 5 + (b 6).toNat * 256 ^ 6 + (b 7).toNat * 256 ^ 7) ∧
  (∀ (b : Nat → Byte) (i : Nat), i < 8 → lane (le64 b) i = b i) ∧
  (∀ d : Word, le64 (fun i => lane d i) = d)

/-- For every state the ten statements executed in order give the result of the single-assignment form, which is (c0,
d1, d2, d3) of R66; so does the second half-round after the first. (R65, R66) -/
def Obligations.SipRoundFormsAgree : Prop :=
  (∀ x : Perm, runStmts (firstHalfStmts ++ secondHalfStmts) x = sipRound x ∧ secondHalf (firstHalf x) = sipRound x) ∧
  (∀ v0 v1 v2 v3 a0 a2 b1 b3 b0 c2 c0 d1 d3 d2 : Word,
    a0 = add64 v0 v1 → a2 = add64 v2 v3 → b1 = rotl64 v1 13 ^^^ a0 → b3 = rotl64 v3 16 ^^^ a2 → b0 = rotl64 a0 32 →
    c2 = add64 a2 b1 → c0 = add64 b0 b3 → d1 = rotl64 b1 17 ^^^ c2 → d3 = rotl64 b3 21 ^^^ c0 → d2 = rotl64 c2 32 →
    sipRound ⟨v0, v1, v2, v3⟩ = ⟨c0, d1, d2, d3⟩)

/-- SipRound is one to one and onto on states of four 64-bit words, and for every word m so is Compress with m: no two
states are merged by a round. (00_scope.md section 5, 40_datapath.md section 3) -/
def Obligations.SipRoundIsAPermutation : Prop :=
  Function.Bijective sipRound ∧ ∀ m : Word, Function.Bijective fun x => compress x m

/-- For every ROUNDS_PER_CYCLE at least 1, an engine with n rounds to run has run exactly them, and stays so, after
any number of clocks that gives it at least n rounds; before that it has run a prefix of them. The form of the engine,
fewer rounds in its last clock and a prefix of the rounds after each clock before it, is the model's choice (DESIGN
CHOICE, notes/assumptions/13.md): rule R67 leaves the form open and specifies only the result of the command.
(40_datapath.md section 3, 00_scope.md section 3) -/
def Obligations.RoundEngineAnyRate : Prop :=
  ∀ (cfg : Config.Params) (n k : Nat) (x : Perm), 1 ≤ cfg.roundsPerCycle →
    (n ≤ cfg.roundsPerCycle * k → EngineState.clocks cfg k ⟨x, n⟩ = ⟨sipRounds n x, 0⟩) ∧
    (cfg.roundsPerCycle * k ≤ n →
      EngineState.clocks cfg k ⟨x, n⟩ = ⟨sipRounds (cfg.roundsPerCycle * k) x, n - cfg.roundsPerCycle * k⟩)

/-- InitState XORs K0, K1, K0, K1 with the four constants; Compress XORs m into v3, runs SipRound twice and XORs m
into v0; Finalize XORs 0xff into v2 and runs SipRound four times; Extract is the XOR of the four words. (R64, R68,
R70, R71) -/
def Obligations.MixingFunctionsSpelledOut : Prop :=
  (∀ k0 k1 : Word, initState k0 k1 =
    ⟨k0 ^^^ 0x736f6d6570736575#64, k1 ^^^ 0x646f72616e646f6d#64, k0 ^^^ 0x6c7967656e657261#64,
      k1 ^^^ 0x7465646279746573#64⟩) ∧
  (∀ v0 v1 v2 v3 m w0 w1 w2 w3 : Word, sipRound (sipRound ⟨v0, v1, v2, v3 ^^^ m⟩) = ⟨w0, w1, w2, w3⟩ →
    compress ⟨v0, v1, v2, v3⟩ m = ⟨w0 ^^^ m, w1, w2, w3⟩) ∧
  (∀ v0 v1 v2 v3 : Word, finalize ⟨v0, v1, v2, v3⟩ =
    sipRound (sipRound (sipRound (sipRound ⟨v0, v1, v2 ^^^ 0x00000000000000ff#64, v3⟩)))) ∧
  (∀ v0 v1 v2 v3 : Word, extract ⟨v0, v1, v2, v3⟩ = v0 ^^^ v1 ^^^ v2 ^^^ v3)

/-- For every DATA, n at most 7 and length byte L: lane i of Pad(d, n, L) is lane i of d for i < n, 0 for n <= i <= 6,
and L for i = 7; and Pad is the masked DATA or-ed with L in bits 63:56. (R69) -/
def Obligations.PadKeepsTailAndLengthByte : Prop :=
  ∀ (d : Word) (n : Nat) (len : BitVec 8), n ≤ 7 →
    pad d n len = (d &&& BitVec.ofNat 64 (2 ^ (8 * n) - 1)) ||| (len.setWidth 64 <<< 56) ∧
    (∀ i, i < n → lane (pad d n len) i = lane d i) ∧
    (∀ i, n ≤ i → i ≤ 6 → lane (pad d n len) i = 0#8) ∧
    lane (pad d n len) 7 = len

/-- For every key, SipHash24 of the empty message is Extract(Finalize(Compress(InitState(K0, K1), 0))). (R74) -/
def Obligations.EmptyMessageIsHashed : Prop :=
  ∀ key : KeyBuf, sipHash24 key [] =
    extract (finalize (compress (initState (keyWord0 key) (keyWord1 key)) 0#64))

/-- The metered datapath computes the same digest as SipHash24 and counts floor(len/8) + 1 compressions and 2 *
(floor(len/8) + 1) + 4 SipRounds, for every key and message: the count depends on the length alone, as rule R73 says
of SipHash24. What is counted is the model's choice: the rounds and compressions of a metered copy of the datapath
(DESIGN CHOICE, notes/assumptions/18.md). (40_datapath.md section 7) -/
def Obligations.RoundCountDependsOnLengthOnly : Prop :=
  ∀ (key : KeyBuf) (msg : List Byte),
    extract (Metered.sipHash24 key msg).v = sipHash24 key msg ∧
    (Metered.sipHash24 key msg).compressions = msg.length / 8 + 1 ∧
    (Metered.sipHash24 key msg).rounds = 2 * (msg.length / 8 + 1) + 4

/-- A command that completes without error and is not gated runs 2 SipRounds if it is BLOCK, 6 if it is FINAL, and 0
if it is NOP, KEY, INIT or CLR; one that raises an error, or is ignored under the gate, runs 0. The metered work of
BLOCK and FINAL computes the state and digest the command writes. The numbers are those of rule R142, but the way of
counting is the model's choice (DESIGN CHOICE, notes/assumptions/18.md): the metered work of the body, counted when
the body runs; the 0 of NOP, KEY, INIT and CLR is what that meter sets for them. (70_reset_and_hazards.md section 4)
-/
def Obligations.CommandRoundCountsFixed : Prop :=
  (∀ (c : Command) (s t : State), runCommand c s = .next t →
    (s.err = .none → t.err = .none →
      (∀ d, decode c = .instr (.block d) → commandRounds c s = 2 ∧
        (datapathWork (.block d) s).v = t.v) ∧
      (∀ n d, decode c = .instr (.final n d) → commandRounds c s = 6 ∧
        extract (datapathWork (.final n d) s).v = t.digest) ∧
      ((decode c = .instr .nop ∨ (∃ st nk d, decode c = .instr (.key st nk d)) ∨ decode c = .instr .init ∨
        decode c = .instr .clr) → commandRounds c s = 0)) ∧
    (s.err = .none → t.err ≠ .none → commandRounds c s = 0) ∧
    (s.err ≠ .none → commandRounds c s = 0))

/-- For every key and every message of any length, from every state with BUSY = 0, ERR = NONE and PHASE not ABSORB,
the commands of HASH assemble and end with DIGEST = SipHash24(key, msg), PHASE = FINISHED, ERR = NONE, KLEN = 16, LEN8
= len mod 256 and V0..V3 = M = 0; and the two KEY commands may be left out when KEYBUF already holds the key with KLEN
= 16. (R92) -/
def Obligations.HashSequenceComputesSipHash24 : Prop :=
  ∀ (key : KeyBuf) (msg : List Byte) (s : State), s.busy = false → s.err = .none → s.phase ≠ .absorb →
    (∃ cs t, assembleAll (Pseudo.hash key msg).expand = some cs ∧ runCommands cs s = .next t ∧
      t.digest = sipHash24 key msg ∧ t.phase = .finished ∧ t.err = .none ∧ t.klen = 16#5 ∧
      t.len8.toNat = msg.length % 256 ∧ t.v = ⟨0#64, 0#64, 0#64, 0#64⟩ ∧ t.m = 0#64 ∧ t.keybuf = key) ∧
    (s.keybuf = key → s.klen = 16#5 →
      ∃ cs t, assembleAll (AsmLine.init :: (Pseudo.absorb msg).expand) = some cs ∧ runCommands cs s = .next t ∧
        t.digest = sipHash24 key msg ∧ t.phase = .finished ∧ t.err = .none ∧ t.klen = 16#5 ∧
        t.len8.toNat = msg.length % 256 ∧ t.v = ⟨0#64, 0#64, 0#64, 0#64⟩ ∧ t.m = 0#64 ∧ t.keybuf = key)

/-- From two states, whatever ran before, with ERR = NONE, PHASE not ABSORB, KLEN = 16 and the same KEYBUF, the same
commands beginning with INIT end in states with the same V0..V3, M, KEYBUF, KLEN, LEN8, PHASE, ERR and DIGEST. (R93)
-/
def Obligations.InvocationsLeaveOnlyTheKey : Prop :=
  ∀ (d : Word) (cs : List Command) (s t s' t' : State),
    s.err = .none → t.err = .none → s.phase ≠ .absorb → t.phase ≠ .absorb →
    s.klen = 16#5 → t.klen = 16#5 → s.keybuf = t.keybuf →
    runCommands (⟨0x00000002#32, d⟩ :: cs) s = .next s' → runCommands (⟨0x00000002#32, d⟩ :: cs) t = .next t' →
    s'.v = t'.v ∧ s'.m = t'.m ∧ s'.keybuf = t'.keybuf ∧ s'.klen = t'.klen ∧ s'.len8 = t'.len8 ∧
      s'.phase = t'.phase ∧ s'.err = t'.err ∧ s'.digest = t'.digest

/-- From every state in ABSORB with ERR = NONE, any list of words absorbed by BLOCK commands completes, stays in
ABSORB with ERR = NONE, leaves KEYBUF, KLEN and DIGEST alone, and adds 8 per word to LEN8 modulo 256. (10_state.md
section 4, 60_exceptions.md section 1, 42_message.md (BLOCK)) -/
def Obligations.NoMessageIsTooLong : Prop :=
  ∀ (ws : List Word) (s : State), s.err = .none → s.phase = .absorb →
    ∃ t, runCommands (ws.map fun w => encode (.block w)) s = .next t ∧ t.phase = .absorb ∧ t.err = .none ∧
      t.len8.toNat = (s.len8.toNat + 8 * ws.length) % 256 ∧ t.keybuf = s.keybuf ∧ t.klen = s.klen ∧
      t.digest = s.digest ∧ t.v = ws.foldl compress s.v

/-- With ERR = NONE, PHASE not ABSORB and KLEN = 16, a KEY with S = 0 leaves KEYBUF as it was and KLEN at least 17,
and INIT then raises KEY_LENGTH; a KEY in ABSORB raises SEQUENCE. (R139) -/
def Obligations.NewKeyNeedsStart : Prop :=
  ∀ (st : Bool) (nk : Nat) (d : Word) (s : State), 1 ≤ nk → nk ≤ 8 → s.err = .none →
    (s.phase ≠ .absorb → s.klen = 16#5 →
      ∃ t u, exec (.key false nk d) s = .next t ∧ 17 ≤ t.klen.toNat ∧ t.keybuf = s.keybuf ∧
        exec .init t = .next u ∧ u.err = .keyLength) ∧
    (s.phase = .absorb → ∃ t, exec (.key st nk d) s = .next t ∧ t.err = .sequence)

/-- From a state in FINISHED, any commands other than INIT and CLR (KEY, NOP, out-of-sequence BLOCK and FINAL, illegal
words, and what the error gate ignores) leave DIGEST and PHASE = FINISHED as they were; and with BUSY = 0 the digest
is still flagged valid. (70_reset_and_hazards.md section 3, 10_state.md section 4) -/
def Obligations.FinishedDigestStaysValid : Prop :=
  ∀ (cs : List Command) (s t : State), s.phase = .finished →
    (∀ c ∈ cs, decode c ≠ .instr .init ∧ decode c ≠ .instr .clr) → runCommands cs s = .next t →
    t.digest = s.digest ∧ t.phase = .finished ∧ (s.busy = false → digestValid t = true)

/-- Take two states that differ at most in KEYBUF, V0..V3 and M. Any commands without FINAL lead to states that still
differ at most in these and show the same outputs. After FINAL, STATUS and cmd_ready are still the same: only DIGEST
may differ. (60_exceptions.md section 4, 10_state.md section 2, 10_state.md section 3) -/
def Obligations.KeyReachesHostOnlyThroughDigest : Prop :=
  (∀ (cs : List Command) (s t s' t' : State), s.SamePublic t →
    (∀ c ∈ cs, ∀ n d, decode c ≠ .instr (.final n d)) →
    runCommands cs s = .next s' → runCommands cs t = .next t' → s'.SamePublic t' ∧ outputs s' = outputs t') ∧
  (∀ (c : Command) (s t s' t' : State), s.SamePublic t → runCommand c s = .next s' → runCommand c t = .next t' →
    status s' = status t' ∧ cmdReady s' = cmdReady t')

/-- From a state outside ABSORB, replacing V0..V3 and M by any values changes no output after any sequence of
commands; so the reset values of V0..V3 and M never reach an output. (R132) -/
def Obligations.ResetPermutationStateIsNeverSeen : Prop :=
  ∀ (cs : List Command) (s s' t' : State) (v : Perm) (m : Word), s.phase ≠ .absorb →
    runCommands cs s = .next s' → runCommands cs { s with v := v, m := m } = .next t' → outputs s' = outputs t'

/-- From a state with nothing stale in the latch, one clock cycle of core and host, the host offering or pausing as it
likes, always gives a next state, and either it does not change the command-level state (the one with the command in
flight completed), or BUSY was 0, a command is accepted, the host moves on to its next command, and the new command-
level state is that of one command step. The latch and countdown at 0 with BUSY = 0 are the model's own (DEDUCED,
notes/assumptions/4.md), and so is the host's program in State (DESIGN CHOICE, notes/assumptions/1.md). (20_memory.md
section 4, 70_reset_and_hazards.md section 3, 70_reset_and_hazards.md section 4) -/
def Obligations.PortsRefineCommandSteps : Prop :=
  ∀ (cfg : Config.Params) (offer : Bool) (s : State), s.LatchClean →
    ∃ t, systemCycle cfg offer s = .next t ∧ t.LatchClean ∧
      ((commandView t = commandView s ∧ t.program = s.program) ∨
       (s.busy = false ∧ offer = true ∧ s.program ≠ [] ∧ t.busy = true ∧ t.program = s.program.tail ∧
        commandView t = step s))

/-- From a command boundary, with the host offering its next command: after the accepting edge and fewer than LAT
further edges, BUSY is 1, cmd_ready 0, every other STATUS field and DIGEST are those from before the command; after
exactly LAT further edges the state is that of the command step. This holds for all latencies at least 1 and whatever
the host offers meanwhile. Rule R41 gives the cycles from acceptance to completion, R137 what is read meanwhile, R140
the latencies: LAT_<cmd>, LAT_ILLEGAL for an illegal word, LAT_NOP for a command ignored under the gate. Two latencies
are the model's own, since R140 does not name them: a command that raises an error takes that of its own kind, and a
CLR under the gate takes LAT_CLR (DEDUCED, notes/assumptions/9.md). (20_memory.md section 4, 70_reset_and_hazards.md
section 3, 70_reset_and_hazards.md section 4) -/
def Obligations.CommandTakesItsLatency : Prop :=
  ∀ (cfg : Config.Params) (s : State) (c : Command) (rest : List Command) (sched : List Bool), cfg.wf →
    s.AtBoundary → s.program = c :: rest → sched.length = latency cfg.lat c s →
    (∀ k, k < sched.length → ∃ t, systemCycles cfg (true :: sched.take k) s = .next t ∧
      t.busy = true ∧ outputs t = ⟨false, status s ||| 1#32, s.digest⟩) ∧
    systemCycles cfg (true :: sched) s = step s

/-- In a state with BUSY = 1 and rst deasserted, a clock cycle gives the same result for any cmd_valid, cmd_word and
cmd_data. (70_reset_and_hazards.md section 3, 20_memory.md section 4) -/
def Obligations.InputsInFlightAreNotSampled : Prop :=
  ∀ (cfg : Config.Params) (p q : PortIn) (s : State), s.busy = true → p.rst = false → q.rst = false →
    cycle cfg p s = cycle cfg q s

/-- At the ports, with rst deasserted, a cycle is refused exactly if the host was holding a command the core had not
taken and now offers a different one. The host has to hold a command exactly after it offered one with BUSY = 1 and
rst deasserted. Three things here are the model's own: what the host has to hold is read at the clock edges with BUSY
= 1, and nothing is held under rst; the cycle that breaks the handshake is the one refused (both DESIGN CHOICE,
notes/assumptions/8.md); and withdrawing an offer is no breach (DEDUCED, notes/assumptions/7.md).
(70_reset_and_hazards.md section 3, 93_implementation_defined.md U4) -/
def Obligations.BrokenHandshakeHasNoMove : Prop :=
  ∀ (cfg : Config.Params) (p : PortIn) (s : PortState),
    (portCycle cfg p s = .refused .handshakeBroken ↔
      p.rst = false ∧ p.cmdValid = true ∧ ∃ c, s.held = some c ∧ p.command ≠ c) ∧
    (∀ t, portCycle cfg p s = .next t → ∀ c,
      (t.held = some c ↔ p.cmdValid = true ∧ s.core.busy = true ∧ p.rst = false ∧ p.command = c)) ∧
    ((∃ t, portCycle cfg p s = .next t) ∨ portCycle cfg p s = .refused .handshakeBroken)

/-- From a state with BUSY = 0 and any finite program, as many steps as the program has commands end in a next state
with the program used up and BUSY = 0, which is the result of the command step applied to each pair in turn; with no
further command the core keeps that state. (R144) -/
def Obligations.RunEndsWithProgramDone : Prop :=
  ∀ s : State, s.busy = false →
    ∃ t, Host.Core.run Sys2Proof.core s.program.length s = .next t ∧
      runCommands s.program { s with program := [] } = .next t ∧
      t.program = [] ∧ t.busy = false ∧ step t = .next t

/-- On a platform of any number of cores, a step of core k gives core k the state its own step gives and leaves every
other core as it was; after reset every core is in the reset state. That one core moves at a time is the model's own
(DEDUCED, notes/assumptions/16.md). (60_exceptions.md section 5) -/
def Obligations.CoresShareNoState : Prop :=
  (∀ (n : Nat) (p : Platform n) (k : Fin n), ∃ (q : Platform n) (t : State),
    p.stepCore k = .next q ∧ step p[k] = .next t ∧ q[k] = t ∧ ∀ j : Fin n, j ≠ k → q[j] = p[j]) ∧
  (∀ (cfg : Config.Params) (j : Fin cfg.nCores), (Platform.reset cfg)[j] = State.reset)

/-- A number operand is the DATA value. A byte list of at most 8 bytes has the DATA value with byte i in lane i and
zeros in the other lanes, and a longer list has none (rule R55). That the empty list is an operand too, with DATA = 0,
is the model's choice (DESIGN CHOICE, notes/assumptions/12.md). (30_encoding.md section 4) -/
def Obligations.DataOperandsFillLanes : Prop :=
  (∀ w : Word, (DataOperand.number w).value = some w) ∧
  (∀ bs : List Byte, bs.length ≤ 8 → ∃ w, (DataOperand.bytes bs).value = some w ∧
    ∀ i, i < 8 → lane w i = bs.getD i 0#8) ∧
  (∀ bs : List Byte, 8 < bs.length → (DataOperand.bytes bs).value = none) ∧
  (DataOperand.bytes [0x00#8, 0x01#8, 0x02#8]).value = (DataOperand.number 0x0000000000020100#64).value

/-- KEY and KEY.S assemble exactly for 1 to 8 bytes and decode to KEY with that count and S, FINAL for 0 to 7, BLOCK,
NOP, INIT and CLR always; FINAL 0 may omit its data, which is then 0, and FINAL with another count may not; .word
gives the raw pair. Data operands are numbers here; DataOperandsFillLanes gives the value of a byte list. That NOP,
INIT and CLR assemble to DATA = 0 is the model's own (DEDUCED, notes/assumptions/10.md): rule R54's table says "DATA
any" for them. (30_encoding.md section 4) -/
def Obligations.AssemblyLinesEncode : Prop :=
  (∀ (nk : Nat) (d : Word),
    (1 ≤ nk ∧ nk ≤ 8 →
      (∃ c, (AsmLine.key nk (.number d)).assemble = some c ∧ decode c = .instr (.key false nk d)) ∧
      ∃ c, (AsmLine.keyS nk (.number d)).assemble = some c ∧ decode c = .instr (.key true nk d)) ∧
    (¬(1 ≤ nk ∧ nk ≤ 8) → (AsmLine.key nk (.number d)).assemble = none ∧
      (AsmLine.keyS nk (.number d)).assemble = none)) ∧
  (∀ (n : Nat) (d : Word),
    (n ≤ 7 → ∃ c, (AsmLine.final n (some (.number d))).assemble = some c ∧ decode c = .instr (.final n d)) ∧
    (7 < n → (AsmLine.final n (some (.number d))).assemble = none) ∧
    (n ≠ 0 → (AsmLine.final n none).assemble = none)) ∧
  (AsmLine.final 0 none).assemble = some ⟨0x00000004#32, 0#64⟩ ∧
  (∀ d : Word, (AsmLine.block (.number d)).assemble = some ⟨0x00000003#32, d⟩) ∧
  AsmLine.nop.assemble = some ⟨0x00000000#32, 0#64⟩ ∧
  AsmLine.init.assemble = some ⟨0x00000002#32, 0#64⟩ ∧
  AsmLine.clr.assemble = some ⟨0x00000005#32, 0#64⟩ ∧
  (∀ (w : Word32) (d : Word), (AsmLine.word w (.number d)).assemble = some ⟨w, d⟩)
end

