-- ==== Sys2Proof/Laws/Datapath.lean ====
section
/-! SUPPORT. Composition of rounds, in the plain and in the metered datapath. -/

namespace Sys2Proof.Machine

@[simp] theorem sipRounds_zero (x : Perm) : sipRounds 0 x = x := rfl

theorem sipRounds_succ (n : Nat) (x : Perm) : sipRounds (n + 1) x = sipRounds n (sipRound x) := rfl

theorem sipRounds_add (a b : Nat) (x : Perm) : sipRounds (a + b) x = sipRounds b (sipRounds a x) := by
  induction a generalizing x with
  | zero => simp
  | succ a ih => simpa [Nat.succ_add, sipRounds_succ] using ih (sipRound x)

/-- Counting `n` rounds changes the count by `n` and the value as the plain rounds do. -/
theorem Metered.roundN_eq (n : Nat) (y : Metered) :
    Metered.roundN n y = ⟨sipRounds n y.v, y.rounds + n, y.compressions⟩ := by
  induction n generalizing y with
  | zero => rfl
  | succ n ih =>
    simp only [Metered.roundN, ih, Metered.round, sipRounds_succ]
    congr 1
    omega

theorem absorbBlocks_succ (msg : List Byte) (x : Perm) (k : Nat) :
    absorbBlocks msg x (k + 1) = compress (absorbBlocks msg x k) (chunkWord msg k) := rfl

end Sys2Proof.Machine
end

