-- ==== Sys2Proof/Laws/Decode.lean ====
section
/-! SUPPORT. The fields of an assembled CMD word, and the inversion lemma of the decoder: which words decode to what. -/

namespace Sys2Proof

/-- The fields of the KEY words, and the rows they match. -/
theorem cmdWord_key (s : Bool) (n : BitVec 3) :
    cmdWord 1#4 s n ≠ 0#32 ∧ cmdWord 1#4 s n &&& 0xFFFFF8EF#32 = 1#32 ∧
    fieldS (cmdWord 1#4 s n) = s ∧ fieldCnt (cmdWord 1#4 s n) = n := by
  revert s n; decide

/-- The fields of the FINAL words, and the rows they match. -/
theorem cmdWord_final (n : BitVec 3) :
    cmdWord 4#4 false n ≠ 0#32 ∧ cmdWord 4#4 false n &&& 0xFFFFF8EF#32 ≠ 1#32 ∧
    cmdWord 4#4 false n ≠ 2#32 ∧ cmdWord 4#4 false n ≠ 3#32 ∧
    cmdWord 4#4 false n &&& 0xFFFFF8FF#32 = 4#32 ∧ fieldCnt (cmdWord 4#4 false n) = n := by
  revert n; decide

theorem decode_key (s : Bool) (n : BitVec 3) (d : Word) :
    decode ⟨cmdWord 1#4 s n, d⟩ = .instr (.key s (n.toNat + 1) d) := by
  obtain ⟨h0, hk, hs, hn⟩ := cmdWord_key s n
  simp [decode, h0, hk, hs, hn]

theorem decode_final (n : BitVec 3) (d : Word) :
    decode ⟨cmdWord 4#4 false n, d⟩ = .instr (.final n.toNat d) := by
  obtain ⟨h0, h1, h2, h3, h4, hn⟩ := cmdWord_final n
  simp [decode, h0, h1, h2, h3, h4, hn]

/-- A word with no bit set outside OP, S and CNT is made of these fields. -/
theorem eq_cmdWord {w : Word32} (h : w &&& 0xFFFFF8E0#32 = 0#32) : w = cmdWord (fieldOp w) (fieldS w) (fieldCnt w) := by
  ext k hk
  have hb := congrArg (fun x => x.getLsbD k) h
  revert hb
  interval_cases k <;> simp [cmdWord, fieldOp, fieldS, fieldCnt, BitVec.getLsbD_eq_getElem]

/-- A word that matches KEY's row has OP = 1 and no reserved bit set. -/
theorem key_row_word {w : Word32} (h : w &&& 0xFFFFF8EF#32 = 1#32) : w = cmdWord 1#4 (fieldS w) (fieldCnt w) := by
  ext k hk
  have hb := congrArg (fun x => x.getLsbD k) h
  revert hb
  interval_cases k <;> simp [cmdWord, fieldS, fieldCnt, BitVec.getLsbD_eq_getElem]

/-- A word that matches FINAL's row has OP = 4, S = 0 and no reserved bit set. -/
theorem final_row_word {w : Word32} (h : w &&& 0xFFFFF8FF#32 = 4#32) : w = cmdWord 4#4 false (fieldCnt w) := by
  ext k hk
  have hb := congrArg (fun x => x.getLsbD k) h
  revert hb
  interval_cases k <;> simp [cmdWord, fieldCnt, BitVec.getLsbD_eq_getElem]

/-- The inversion lemma of the decoder: what a command that decodes to an instruction looks like. -/
theorem decode_instr {c : Command} {i : Instr} (h : decode c = .instr i) :
    (c.cmd = 0#32 ∧ i = .nop) ∨
    (∃ s n, c.cmd = cmdWord 1#4 s n ∧ i = .key s (n.toNat + 1) c.data) ∨
    (c.cmd = 2#32 ∧ i = .init) ∨
    (c.cmd = 3#32 ∧ i = .block c.data) ∨
    (∃ n, c.cmd = cmdWord 4#4 false n ∧ i = .final n.toNat c.data) ∨
    (c.cmd = 5#32 ∧ i = .clr) := by
  unfold decode at h
  split at h
  · cases h; exact .inl ⟨‹_›, rfl⟩
  split at h
  · cases h; exact .inr (.inl ⟨_, _, key_row_word ‹_›, rfl⟩)
  split at h
  · cases h; exact .inr (.inr (.inl ⟨‹_›, rfl⟩))
  split at h
  · cases h; exact .inr (.inr (.inr (.inl ⟨‹_›, rfl⟩)))
  split at h
  · cases h; exact .inr (.inr (.inr (.inr (.inl ⟨_, final_row_word ‹_›, rfl⟩))))
  split at h
  · cases h; exact .inr (.inr (.inr (.inr (.inr ⟨‹_›, rfl⟩))))
  · cases h

/-- An illegal word matches no row. -/
theorem decode_illegal {c : Command} {why : IllegalReason} (h : decode c = .illegal why) :
    c.cmd ≠ 0#32 ∧ c.cmd &&& 0xFFFFF8EF#32 ≠ 1#32 ∧ c.cmd ≠ 2#32 ∧ c.cmd ≠ 3#32 ∧
    c.cmd &&& 0xFFFFF8FF#32 ≠ 4#32 ∧ c.cmd ≠ 5#32 := by
  unfold decode at h
  split at h
  · cases h
  split at h
  · cases h
  split at h
  · cases h
  split at h
  · cases h
  split at h
  · cases h
  split at h
  · cases h
  · exact ⟨‹_›, ‹_›, ‹_›, ‹_›, ‹_›, ‹_›⟩

end Sys2Proof
end

