-- ==== Sys2Proof/Laws/State.lean ====
section
/-! SUPPORT. What each update of the state leaves in each field, one rewriting rule per field per update. -/

namespace Sys2Proof.Machine

section

variable (s : State) (code : ErrCode)

@[simp] theorem State.withError_v : (s.withError code).v = s.v := rfl
@[simp] theorem State.withError_m : (s.withError code).m = s.m := rfl
@[simp] theorem State.withError_keybuf : (s.withError code).keybuf = s.keybuf := rfl
@[simp] theorem State.withError_klen : (s.withError code).klen = s.klen := rfl
@[simp] theorem State.withError_len8 : (s.withError code).len8 = s.len8 := rfl
@[simp] theorem State.withError_phase : (s.withError code).phase = s.phase := rfl
@[simp] theorem State.withError_err : (s.withError code).err = code := rfl
@[simp] theorem State.withError_digest : (s.withError code).digest = s.digest := rfl
@[simp] theorem State.withError_busy : (s.withError code).busy = s.busy := rfl
@[simp] theorem State.withError_latch : (s.withError code).latch = s.latch := rfl
@[simp] theorem State.withError_cyclesLeft : (s.withError code).cyclesLeft = s.cyclesLeft := rfl
@[simp] theorem State.withError_faulted : (s.withError code).faulted = true := rfl
@[simp] theorem State.withError_program : (s.withError code).program = s.program := rfl

end

section

variable (s : State) (rest : List Command)

@[simp] theorem State.withProgram_v : (s.withProgram rest).v = s.v := rfl
@[simp] theorem State.withProgram_m : (s.withProgram rest).m = s.m := rfl
@[simp] theorem State.withProgram_keybuf : (s.withProgram rest).keybuf = s.keybuf := rfl
@[simp] theorem State.withProgram_klen : (s.withProgram rest).klen = s.klen := rfl
@[simp] theorem State.withProgram_len8 : (s.withProgram rest).len8 = s.len8 := rfl
@[simp] theorem State.withProgram_phase : (s.withProgram rest).phase = s.phase := rfl
@[simp] theorem State.withProgram_err : (s.withProgram rest).err = s.err := rfl
@[simp] theorem State.withProgram_digest : (s.withProgram rest).digest = s.digest := rfl
@[simp] theorem State.withProgram_busy : (s.withProgram rest).busy = s.busy := rfl
@[simp] theorem State.withProgram_latch : (s.withProgram rest).latch = s.latch := rfl
@[simp] theorem State.withProgram_cyclesLeft : (s.withProgram rest).cyclesLeft = s.cyclesLeft := rfl
@[simp] theorem State.withProgram_faulted : (s.withProgram rest).faulted = s.faulted := rfl
@[simp] theorem State.withProgram_program : (s.withProgram rest).program = rest := rfl

end

section

variable (s : State)

@[simp] theorem State.recover_v : (s.recover).v = Perm.zero := rfl
@[simp] theorem State.recover_m : (s.recover).m = 0#64 := rfl
@[simp] theorem State.recover_keybuf : (s.recover).keybuf = s.keybuf := rfl
@[simp] theorem State.recover_klen : (s.recover).klen = s.klen := rfl
@[simp] theorem State.recover_len8 : (s.recover).len8 = 0#8 := rfl
@[simp] theorem State.recover_phase : (s.recover).phase = .idle := rfl
@[simp] theorem State.recover_err : (s.recover).err = .none := rfl
@[simp] theorem State.recover_digest : (s.recover).digest = 0#64 := rfl
@[simp] theorem State.recover_busy : (s.recover).busy = s.busy := rfl
@[simp] theorem State.recover_latch : (s.recover).latch = s.latch := rfl
@[simp] theorem State.recover_cyclesLeft : (s.recover).cyclesLeft = s.cyclesLeft := rfl
@[simp] theorem State.recover_faulted : (s.recover).faulted = s.faulted := rfl
@[simp] theorem State.recover_program : (s.recover).program = s.program := rfl

end

section

variable (s : State)

@[simp] theorem State.retire_v : (s.retire).v = s.v := rfl
@[simp] theorem State.retire_m : (s.retire).m = s.m := rfl
@[simp] theorem State.retire_keybuf : (s.retire).keybuf = s.keybuf := rfl
@[simp] theorem State.retire_klen : (s.retire).klen = s.klen := rfl
@[simp] theorem State.retire_len8 : (s.retire).len8 = s.len8 := rfl
@[simp] theorem State.retire_phase : (s.retire).phase = s.phase := rfl
@[simp] theorem State.retire_err : (s.retire).err = s.err := rfl
@[simp] theorem State.retire_digest : (s.retire).digest = s.digest := rfl
@[simp] theorem State.retire_busy : (s.retire).busy = false := rfl
@[simp] theorem State.retire_latch : (s.retire).latch = emptyLatch := rfl
@[simp] theorem State.retire_cyclesLeft : (s.retire).cyclesLeft = 0 := rfl
@[simp] theorem State.retire_faulted : (s.retire).faulted = s.faulted := rfl
@[simp] theorem State.retire_program : (s.retire).program = s.program := rfl

end

section

variable (s : State)

@[simp] theorem State.countDown_v : (s.countDown).v = s.v := rfl
@[simp] theorem State.countDown_m : (s.countDown).m = s.m := rfl
@[simp] theorem State.countDown_keybuf : (s.countDown).keybuf = s.keybuf := rfl
@[simp] theorem State.countDown_klen : (s.countDown).klen = s.klen := rfl
@[simp] theorem State.countDown_len8 : (s.countDown).len8 = s.len8 := rfl
@[simp] theorem State.countDown_phase : (s.countDown).phase = s.phase := rfl
@[simp] theorem State.countDown_err : (s.countDown).err = s.err := rfl
@[simp] theorem State.countDown_digest : (s.countDown).digest = s.digest := rfl
@[simp] theorem State.countDown_busy : (s.countDown).busy = s.busy := rfl
@[simp] theorem State.countDown_latch : (s.countDown).latch = s.latch := rfl
@[simp] theorem State.countDown_cyclesLeft : (s.countDown).cyclesLeft = s.cyclesLeft - 1 := rfl
@[simp] theorem State.countDown_faulted : (s.countDown).faulted = s.faulted := rfl
@[simp] theorem State.countDown_program : (s.countDown).program = s.program := rfl

end

section

variable (s : State) (c : Command) (n : Nat)

@[simp] theorem State.accept_v : (s.accept c n).v = s.v := rfl
@[simp] theorem State.accept_m : (s.accept c n).m = s.m := rfl
@[simp] theorem State.accept_keybuf : (s.accept c n).keybuf = s.keybuf := rfl
@[simp] theorem State.accept_klen : (s.accept c n).klen = s.klen := rfl
@[simp] theorem State.accept_len8 : (s.accept c n).len8 = s.len8 := rfl
@[simp] theorem State.accept_phase : (s.accept c n).phase = s.phase := rfl
@[simp] theorem State.accept_err : (s.accept c n).err = s.err := rfl
@[simp] theorem State.accept_digest : (s.accept c n).digest = s.digest := rfl
@[simp] theorem State.accept_busy : (s.accept c n).busy = true := rfl
@[simp] theorem State.accept_latch : (s.accept c n).latch = c := rfl
@[simp] theorem State.accept_cyclesLeft : (s.accept c n).cyclesLeft = n := rfl
@[simp] theorem State.accept_faulted : (s.accept c n).faulted = s.faulted := rfl
@[simp] theorem State.accept_program : (s.accept c n).program = s.program := rfl

end

section

variable (s : State) (start : Bool) (nk : Nat) (data : Word)

@[simp] theorem State.loadKey_v : (s.loadKey start nk data).v = s.v := rfl
@[simp] theorem State.loadKey_m : (s.loadKey start nk data).m = s.m := rfl
@[simp] theorem State.loadKey_keybuf : (s.loadKey start nk data).keybuf = storeKeyBytes (if start then KeyBuf.zero else s.keybuf) (if start then 0 else s.klen.toNat) data nk := rfl
@[simp] theorem State.loadKey_klen : (s.loadKey start nk data).klen = countKeyBytes (if start then 0 else s.klen.toNat) nk := rfl
@[simp] theorem State.loadKey_len8 : (s.loadKey start nk data).len8 = s.len8 := rfl
@[simp] theorem State.loadKey_phase : (s.loadKey start nk data).phase = s.phase := rfl
@[simp] theorem State.loadKey_err : (s.loadKey start nk data).err = s.err := rfl
@[simp] theorem State.loadKey_digest : (s.loadKey start nk data).digest = s.digest := rfl
@[simp] theorem State.loadKey_busy : (s.loadKey start nk data).busy = s.busy := rfl
@[simp] theorem State.loadKey_latch : (s.loadKey start nk data).latch = s.latch := rfl
@[simp] theorem State.loadKey_cyclesLeft : (s.loadKey start nk data).cyclesLeft = s.cyclesLeft := rfl
@[simp] theorem State.loadKey_faulted : (s.loadKey start nk data).faulted = s.faulted := rfl
@[simp] theorem State.loadKey_program : (s.loadKey start nk data).program = s.program := rfl

end

section

variable (s : State)

@[simp] theorem State.openInvocation_v : (s.openInvocation).v = initState (keyWord0 s.keybuf) (keyWord1 s.keybuf) := rfl
@[simp] theorem State.openInvocation_m : (s.openInvocation).m = 0#64 := rfl
@[simp] theorem State.openInvocation_keybuf : (s.openInvocation).keybuf = s.keybuf := rfl
@[simp] theorem State.openInvocation_klen : (s.openInvocation).klen = s.klen := rfl
@[simp] theorem State.openInvocation_len8 : (s.openInvocation).len8 = 0#8 := rfl
@[simp] theorem State.openInvocation_phase : (s.openInvocation).phase = .absorb := rfl
@[simp] theorem State.openInvocation_err : (s.openInvocation).err = s.err := rfl
@[simp] theorem State.openInvocation_digest : (s.openInvocation).digest = 0#64 := rfl
@[simp] theorem State.openInvocation_busy : (s.openInvocation).busy = s.busy := rfl
@[simp] theorem State.openInvocation_latch : (s.openInvocation).latch = s.latch := rfl
@[simp] theorem State.openInvocation_cyclesLeft : (s.openInvocation).cyclesLeft = s.cyclesLeft := rfl
@[simp] theorem State.openInvocation_faulted : (s.openInvocation).faulted = s.faulted := rfl
@[simp] theorem State.openInvocation_program : (s.openInvocation).program = s.program := rfl

end

section

variable (s : State) (data : Word)

@[simp] theorem State.absorbWord_v : (s.absorbWord data).v = compress s.v data := rfl
@[simp] theorem State.absorbWord_m : (s.absorbWord data).m = data := rfl
@[simp] theorem State.absorbWord_keybuf : (s.absorbWord data).keybuf = s.keybuf := rfl
@[simp] theorem State.absorbWord_klen : (s.absorbWord data).klen = s.klen := rfl
@[simp] theorem State.absorbWord_len8 : (s.absorbWord data).len8 = s.len8 + 8#8 := rfl
@[simp] theorem State.absorbWord_phase : (s.absorbWord data).phase = s.phase := rfl
@[simp] theorem State.absorbWord_err : (s.absorbWord data).err = s.err := rfl
@[simp] theorem State.absorbWord_digest : (s.absorbWord data).digest = s.digest := rfl
@[simp] theorem State.absorbWord_busy : (s.absorbWord data).busy = s.busy := rfl
@[simp] theorem State.absorbWord_latch : (s.absorbWord data).latch = s.latch := rfl
@[simp] theorem State.absorbWord_cyclesLeft : (s.absorbWord data).cyclesLeft = s.cyclesLeft := rfl
@[simp] theorem State.absorbWord_faulted : (s.absorbWord data).faulted = s.faulted := rfl
@[simp] theorem State.absorbWord_program : (s.absorbWord data).program = s.program := rfl

end

section

variable (s : State) (n : Nat) (data : Word)

@[simp] theorem State.closeInvocation_v : (s.closeInvocation n data).v = Perm.zero := rfl
@[simp] theorem State.closeInvocation_m : (s.closeInvocation n data).m = 0#64 := rfl
@[simp] theorem State.closeInvocation_keybuf : (s.closeInvocation n data).keybuf = s.keybuf := rfl
@[simp] theorem State.closeInvocation_klen : (s.closeInvocation n data).klen = s.klen := rfl
@[simp] theorem State.closeInvocation_len8 : (s.closeInvocation n data).len8 = finalLength n s := rfl
@[simp] theorem State.closeInvocation_phase : (s.closeInvocation n data).phase = .finished := rfl
@[simp] theorem State.closeInvocation_err : (s.closeInvocation n data).err = s.err := rfl
@[simp] theorem State.closeInvocation_digest : (s.closeInvocation n data).digest = finalDigest n data s := rfl
@[simp] theorem State.closeInvocation_busy : (s.closeInvocation n data).busy = s.busy := rfl
@[simp] theorem State.closeInvocation_latch : (s.closeInvocation n data).latch = s.latch := rfl
@[simp] theorem State.closeInvocation_cyclesLeft : (s.closeInvocation n data).cyclesLeft = s.cyclesLeft := rfl
@[simp] theorem State.closeInvocation_faulted : (s.closeInvocation n data).faulted = s.faulted := rfl
@[simp] theorem State.closeInvocation_program : (s.closeInvocation n data).program = s.program := rfl

end

section

variable (s : State)

@[simp] theorem State.reset_v : State.reset.v = Perm.zero := rfl
@[simp] theorem State.reset_m : State.reset.m = 0#64 := rfl
@[simp] theorem State.reset_keybuf : State.reset.keybuf = KeyBuf.zero := rfl
@[simp] theorem State.reset_klen : State.reset.klen = 0#5 := rfl
@[simp] theorem State.reset_len8 : State.reset.len8 = 0#8 := rfl
@[simp] theorem State.reset_phase : State.reset.phase = .idle := rfl
@[simp] theorem State.reset_err : State.reset.err = .none := rfl
@[simp] theorem State.reset_digest : State.reset.digest = 0#64 := rfl
@[simp] theorem State.reset_busy : State.reset.busy = false := rfl
@[simp] theorem State.reset_latch : State.reset.latch = emptyLatch := rfl
@[simp] theorem State.reset_cyclesLeft : State.reset.cyclesLeft = 0 := rfl
@[simp] theorem State.reset_faulted : State.reset.faulted = false := rfl
@[simp] theorem State.reset_program : State.reset.program = [] := rfl

@[simp] theorem State.resetCore_eq : s.resetCore = State.reset.withProgram s.program := rfl

@[simp] theorem State.withProgram_withProgram (p q : List Command) :
    (s.withProgram p).withProgram q = s.withProgram q := rfl

@[simp] theorem State.withProgram_self : s.withProgram s.program = s := rfl

@[simp] theorem State.retire_accept (c : Command) (n : Nat) : (s.accept c n).retire = s.retire := rfl

@[simp] theorem State.retire_retire : s.retire.retire = s.retire := rfl

@[simp] theorem State.retire_countDown : s.countDown.retire = s.retire := rfl

theorem State.retire_withProgram (p : List Command) : (s.withProgram p).retire = s.retire.withProgram p := rfl

end

end Sys2Proof.Machine
end

