-- ==== Sys2Proof/Laws/Ops.lean ====
section
/-! SUPPORT. What the shared operations can do: the gate, the fetch, and the command step as a whole. -/

namespace Sys2Proof.Machine

theorem gated_open {s : State} (h : s.err = .none) (body : Result) : gated s body = body := if_pos h

theorem gated_shut {s : State} (h : s.err ≠ .none) (body : Result) : gated s body = .next s := if_neg h

/-- The gate either answers the body or changes nothing. -/
theorem gated_next {s t : State} {body : Result} (h : gated s body = .next t) :
    (s.err = .none ∧ body = .next t) ∨ (s.err ≠ .none ∧ t = s) := by
  unfold gated at h
  split at h
  · exact .inl ⟨‹_›, h⟩
  · exact .inr ⟨‹_›, by cases h; rfl⟩

theorem raiseError_eq (code : ErrCode) (s : State) : raiseError code s = .next (s.withError code) := rfl

theorem fetch_busy {s : State} (h : s.busy = true) : fetch s = some (s.latch, s.retire) := by
  simp [fetch, h]

theorem fetch_waiting {s : State} (h : s.busy = false) (hp : s.program = []) : fetch s = none := by
  simp [fetch, h, hp]

theorem fetch_presented {s : State} {c : Command} {rest : List Command} (h : s.busy = false)
    (hp : s.program = c :: rest) : fetch s = some (c, s.withProgram rest) := by
  simp [fetch, h, hp]

theorem runCommand_instr {c : Command} {i : Instr} (h : decode c = .instr i) (s : State) :
    runCommand c s = exec i s := by
  simp [runCommand, h]

theorem runCommand_illegal {c : Command} {why : IllegalReason} (h : decode c = .illegal why) (s : State) :
    runCommand c s = execIllegal s := by
  simp [runCommand, h]

/-- Everything an instruction can do to the state: nothing, an error, or the writes of its body, each under the conditions
that lead to it. -/
inductive Effect (s : State) : Instr → State → Prop
  | gated (i : Instr) (h : s.err ≠ .none) (hi : i ≠ .clr) : Effect s i s
  | nop (h : s.err = .none) : Effect s .nop s
  | keyInAbsorb (st : Bool) (nk : Nat) (d : Word) (h : s.err = .none) (hp : s.phase = .absorb) :
      Effect s (.key st nk d) (s.withError .sequence)
  | key (st : Bool) (nk : Nat) (d : Word) (h : s.err = .none) (hp : s.phase ≠ .absorb) :
      Effect s (.key st nk d) (s.loadKey st nk d)
  | initInAbsorb (h : s.err = .none) (hp : s.phase = .absorb) : Effect s .init (s.withError .sequence)
  | initKeyLength (h : s.err = .none) (hp : s.phase ≠ .absorb) (hk : s.klen.toNat ≠ 16) :
      Effect s .init (s.withError .keyLength)
  | init (h : s.err = .none) (hp : s.phase ≠ .absorb) (hk : s.klen.toNat = 16) :
      Effect s .init s.openInvocation
  | blockOutside (d : Word) (h : s.err = .none) (hp : s.phase ≠ .absorb) :
      Effect s (.block d) (s.withError .sequence)
  | block (d : Word) (h : s.err = .none) (hp : s.phase = .absorb) : Effect s (.block d) (s.absorbWord d)
  | finalOutside (n : Nat) (d : Word) (h : s.err = .none) (hp : s.phase ≠ .absorb) :
      Effect s (.final n d) (s.withError .sequence)
  | final (n : Nat) (d : Word) (h : s.err = .none) (hp : s.phase = .absorb) :
      Effect s (.final n d) (s.closeInvocation n d)
  | clr : Effect s .clr s.recover

/-- The inversion lemma of the meanings: an instruction that answers a next state has one of the effects above. -/
theorem exec_effect {i : Instr} {s t : State} (h : exec i s = .next t) : Effect s i t := by
  cases i with
  | clr => cases h; exact .clr
  | nop =>
    rcases gated_next h with ⟨he, hb⟩ | ⟨he, rfl⟩
    · cases hb; exact .nop he
    · exact .gated _ he (by simp)
  | key st nk d =>
    rcases gated_next h with ⟨he, hb⟩ | ⟨he, rfl⟩
    · split at hb <;> cases hb
      · exact .keyInAbsorb _ _ _ he ‹_›
      · exact .key _ _ _ he ‹_›
    · exact .gated _ he (by simp)
  | init =>
    rcases gated_next h with ⟨he, hb⟩ | ⟨he, rfl⟩
    · split at hb
      · cases hb; exact .initInAbsorb he ‹_›
      · split at hb <;> cases hb
        · exact .initKeyLength he ‹_› ‹_›
        · exact .init he ‹_› (Classical.not_not.mp ‹_›)
    · exact .gated _ he (by simp)
  | block d =>
    rcases gated_next h with ⟨he, hb⟩ | ⟨he, rfl⟩
    · split at hb <;> cases hb
      · exact .blockOutside _ he ‹_›
      · exact .block _ he (Classical.not_not.mp ‹_›)
    · exact .gated _ he (by simp)
  | final n d =>
    rcases gated_next h with ⟨he, hb⟩ | ⟨he, rfl⟩
    · split at hb <;> cases hb
      · exact .finalOutside _ _ he ‹_›
      · exact .final _ _ he (Classical.not_not.mp ‹_›)
    · exact .gated _ he (by simp)

/-- An illegal word raises ILLEGAL_CMD or, under the gate, does nothing. -/
theorem execIllegal_next {s t : State} (h : execIllegal s = .next t) :
    (s.err = .none ∧ t = s.withError .illegalCmd) ∨ (s.err ≠ .none ∧ t = s) := by
  rcases gated_next h with ⟨he, hb⟩ | h'
  · cases hb; exact .inl ⟨he, rfl⟩
  · exact .inr h'

/-- The inversion lemma of the command step (R100). -/
theorem runCommand_next {c : Command} {s t : State} (h : runCommand c s = .next t) :
    (∃ i, decode c = .instr i ∧ Effect s i t) ∨
    (∃ why, decode c = .illegal why ∧
      ((s.err = .none ∧ t = s.withError .illegalCmd) ∨ (s.err ≠ .none ∧ t = s))) := by
  unfold runCommand at h
  split at h
  · exact .inl ⟨_, ‹_›, exec_effect h⟩
  · exact .inr ⟨_, ‹_›, execIllegal_next h⟩

/-- No instruction touches the host's side or the command channel. -/
theorem Effect.channel {s t : State} {i : Instr} (h : Effect s i t) :
    t.busy = s.busy ∧ t.latch = s.latch ∧ t.cyclesLeft = s.cyclesLeft ∧ t.program = s.program := by
  cases h <;> exact ⟨rfl, rfl, rfl, rfl⟩

/-- No command touches the host's side or the command channel. -/
theorem runCommand_channel {c : Command} {s t : State} (h : runCommand c s = .next t) :
    t.busy = s.busy ∧ t.latch = s.latch ∧ t.cyclesLeft = s.cyclesLeft ∧ t.program = s.program := by
  rcases runCommand_next h with ⟨i, -, he⟩ | ⟨_, -, ⟨-, rfl⟩ | ⟨-, rfl⟩⟩
  · exact he.channel
  · exact ⟨rfl, rfl, rfl, rfl⟩
  · exact ⟨rfl, rfl, rfl, rfl⟩

end Sys2Proof.Machine
end

