-- ==== Sys2Proof/Laws/Exec.lean ====
section
/-! SUPPORT. The meanings run forward: what each answers once its checks pass, and that each answers. -/

namespace Sys2Proof.Machine

section

variable {s : State} (he : s.err = .none)

include he

theorem execKey_open (st : Bool) (nk : Nat) (d : Word) (hp : s.phase ≠ .absorb) :
    execKey st nk d s = .next (s.loadKey st nk d) := by
  simp [execKey, gated, he, hp]

theorem execKey_inAbsorb (st : Bool) (nk : Nat) (d : Word) (hp : s.phase = .absorb) :
    execKey st nk d s = .next (s.withError .sequence) := by
  simp [execKey, gated, he, hp, raiseError]

theorem execInit_open (hp : s.phase ≠ .absorb) (hk : s.klen = 16#5) : execInit s = .next s.openInvocation := by
  simp [execInit, gated, he, hp, hk, Config.keyBytes]

theorem execInit_inAbsorb (hp : s.phase = .absorb) : execInit s = .next (s.withError .sequence) := by
  simp [execInit, gated, he, hp, raiseError]

theorem execInit_keyLength (hp : s.phase ≠ .absorb) (hk : s.klen ≠ 16#5) :
    execInit s = .next (s.withError .keyLength) := by
  have hn : s.klen.toNat ≠ 16 := fun h => hk (BitVec.eq_of_toNat_eq h)
  simp [execInit, gated, he, hp, hn, raiseError, Config.keyBytes]

theorem execBlock_open (d : Word) (hp : s.phase = .absorb) : execBlock d s = .next (s.absorbWord d) := by
  simp [execBlock, gated, he, hp]

theorem execBlock_outside (d : Word) (hp : s.phase ≠ .absorb) : execBlock d s = .next (s.withError .sequence) := by
  simp [execBlock, gated, he, hp, raiseError]

theorem execFinal_open (n : Nat) (d : Word) (hp : s.phase = .absorb) :
    execFinal n d s = .next (s.closeInvocation n d) := by
  simp [execFinal, gated, he, hp]

theorem execFinal_outside (n : Nat) (d : Word) (hp : s.phase ≠ .absorb) :
    execFinal n d s = .next (s.withError .sequence) := by
  simp [execFinal, gated, he, hp, raiseError]

end

/-- Under the gate an instruction other than CLR does nothing. -/
theorem exec_gated {s : State} (h : s.err ≠ .none) {i : Instr} (hi : i ≠ .clr) : exec i s = .next s := by
  cases i <;> first | exact absurd rfl hi | exact gated_shut h _

/-- LEN8 counts modulo 256 (R22). -/
theorem len8_add (x : BitVec 8) (n : Nat) : x + BitVec.ofNat 8 n = BitVec.ofNat 8 ((x.toNat + n) % 256) := by
  apply BitVec.eq_of_toNat_eq
  simp

theorem runCommands_cons {c : Command} {s t : State} (h : runCommand c s = .next t) (cs : List Command) :
    runCommands (c :: cs) s = runCommands cs t := by
  simp [runCommands, h]

/-- A run of two lists is a run of the first and then of the second. -/
theorem runCommands_append {s t : State} (cs ds : List Command) (h : runCommands cs s = .next t) :
    runCommands (cs ++ ds) s = runCommands ds t := by
  induction cs generalizing s with
  | nil => cases h; rfl
  | cons c cs ih =>
    cases hc : runCommand c s with
    | next u =>
      rw [runCommands_cons hc] at h
      rw [List.cons_append, runCommands_cons hc]
      exact ih h
    | fault r => simp [runCommands, hc] at h
    | refused r => simp [runCommands, hc] at h

end Sys2Proof.Machine
end

