-- ==== Sys2Proof/Laws/Operands.lean ====
section
/-! SUPPORT. What the operand functions read and write: key bytes, lanes and little-endian words. -/

namespace Sys2Proof.Machine

theorem keyByte_of_lt (k : KeyBuf) (i : Nat) (h : i < 16) : keyByte k i = k[i] := by
  simp [keyByte, List.getD_eq_getElem?_getD, h]

theorem keyByte_zero (i : Nat) (h : i < 16) : keyByte KeyBuf.zero i = 0#8 := by
  simp [keyByte_of_lt _ _ h, KeyBuf.zero]

theorem keyByte_set (k : KeyBuf) (p : Nat) (hp : p < 16) (b : Byte) (i : Nat) (hi : i < 16) :
    keyByte (k.set p b hp) i = if p = i then b else keyByte k i := by
  simp [keyByte_of_lt _ _ hi, Vector.getElem_set]

/-- Two key buffers with the same sixteen bytes are equal. -/
theorem keyBuf_ext {k l : KeyBuf} (h : ∀ i, i < 16 → keyByte k i = keyByte l i) : k = l := by
  refine Vector.ext fun i hi => ?_
  rw [← keyByte_of_lt k i hi, ← keyByte_of_lt l i hi, h i hi]

/-- The store loop of KEY one byte further, at one position. -/
theorem keyByte_store_succ (kb : KeyBuf) (base : Nat) (data : Word) (n i : Nat) (hi : i < 16) :
    keyByte (storeKeyBytes kb base data (n + 1)) i =
      if base + n = i then lane data n else keyByte (storeKeyBytes kb base data n) i := by
  by_cases h : base + n < 16
  · simp [storeKeyBytes, h, keyByte_set _ _ _ _ _ hi]
  · have hne : base + n ≠ i := by omega
    simp [storeKeyBytes, h, hne]

theorem countKeyBytes_toNat (base nk : Nat) : (countKeyBytes base nk).toNat = min (base + nk) 31 := by
  simp [countKeyBytes, Config.klenMax]

end Sys2Proof.Machine
end

