-- ==== Sys2Proof/Laws/PerInstr.lean ====
section
/-! SUPPORT. A property of every instruction as syntax: its CMD word is accepted by the row of spec/30_encoding.md R51 that
bears its mnemonic. -/

namespace Sys2Proof.Laws.OwnRow

/-- The encoding of the instruction matches the row of its mnemonic. -/
def Statement (i : Instr) : Prop :=
  ∀ r ∈ encodingRows, r.mnemonic = i.mnemonic → r.accepts (encode i).cmd = true

theorem nop : Statement .nop := by unfold Statement; decide

theorem key (start : Bool) (nk : Nat) (data : Word) : Statement (.key start nk data) := by
  have h : ∀ (s : Bool) (c : BitVec 3), cmdWord 1#4 s c &&& 0xFFFFF8EF#32 = 1#32 := by decide
  intro r hr hm
  simp only [encodingRows, List.mem_cons, List.not_mem_nil, or_false] at hr
  rcases hr with rfl | rfl | rfl | rfl | rfl | rfl <;> simp [Instr.mnemonic] at hm
  simp [EncodingRow.accepts, encode, h]

theorem init : Statement .init := by unfold Statement; decide

theorem block (data : Word) : Statement (.block data) := by
  intro r hr hm
  simp only [encodingRows, List.mem_cons, List.not_mem_nil, or_false] at hr
  rcases hr with rfl | rfl | rfl | rfl | rfl | rfl <;> simp [Instr.mnemonic] at hm
  simp [EncodingRow.accepts, encode, cmdWord]

theorem final (n : Nat) (data : Word) : Statement (.final n data) := by
  have h : ∀ c : BitVec 3, cmdWord 4#4 false c &&& 0xFFFFF8FF#32 = 4#32 := by decide
  intro r hr hm
  simp only [encodingRows, List.mem_cons, List.not_mem_nil, or_false] at hr
  rcases hr with rfl | rfl | rfl | rfl | rfl | rfl <;> simp [Instr.mnemonic] at hm
  simp [EncodingRow.accepts, encode, h]

theorem clr : Statement .clr := by unfold Statement; decide

end Sys2Proof.Laws.OwnRow
end

