-- ==== Sys2Proof/Laws/Ports.lean ====
section
/-! SUPPORT. What one clock edge can do, case by case. -/

namespace Sys2Proof.Machine

theorem clockEdge_rst (lat : Config.Latencies) {p : PortIn} (h : p.rst = true) (s : State) :
    clockEdge lat p s = .next s.resetCore := if_pos h

/-- The completion edge (R41). -/
theorem clockEdge_complete (lat : Config.Latencies) {p : PortIn} {s : State} (hr : p.rst = false)
    (hb : s.busy = true) (hc : s.cyclesLeft ≤ 1) : clockEdge lat p s = runCommand s.latch s.retire := by
  simp [clockEdge, hr, hb, hc]

/-- An edge inside a command (R41). -/
theorem clockEdge_count (lat : Config.Latencies) {p : PortIn} {s : State} (hr : p.rst = false)
    (hb : s.busy = true) (hc : 1 < s.cyclesLeft) :
    clockEdge lat p s = .next s.countDown := by
  simp [clockEdge, hr, hb, Nat.not_le.mpr hc]

/-- The accepting edge (R41). -/
theorem clockEdge_accept (lat : Config.Latencies) {p : PortIn} {s : State} (hr : p.rst = false)
    (hb : s.busy = false) (hv : p.cmdValid = true) :
    clockEdge lat p s = .next (s.accept p.command (latency lat p.command s)) := by
  simp [clockEdge, hr, hb, hv]

/-- An edge at which nothing is offered and nothing is in flight. -/
theorem clockEdge_wait (lat : Config.Latencies) {p : PortIn} {s : State} (hr : p.rst = false)
    (hb : s.busy = false) (hv : p.cmdValid = false) : clockEdge lat p s = .next s := by
  simp [clockEdge, hr, hb, hv]

/-- With `rst` deasserted the reset style does not matter (R131). -/
theorem settle_of_not_rst (style : Config.ResetStyle) {p : PortIn} (h : p.rst = false) (s : State) :
    settle style p s = s := by
  cases style <;> simp [settle, h]

@[simp] theorem hostDrive_rst (offer : Bool) (s : State) : (hostDrive offer s).rst = false := by
  unfold hostDrive; split <;> rfl

/-- The host drives the head of its program (R144). -/
theorem hostDrive_command {s : State} {c : Command} {rest : List Command} (h : s.program = c :: rest) (offer : Bool) :
    (hostDrive offer s).command = c ∧ (hostDrive offer s).cmdValid = offer := by
  simp [hostDrive, h, PortIn.command]

end Sys2Proof.Machine
end

