-- ==== Sys2Proof/Tests/Slice0.lean ====
section
/-! SUPPORT. Tests of the model: expected results are the vectors of spec/95_test_vectors.md (cited T<n>) and the encodings of
spec/30_encoding.md R51. The witnesses at the end meet the hypotheses of the statements in Certificates/Slice0. -/

namespace Sys2Proof.Tests

open Sys2Proof.Machine

/-! Well-formedness refuses what has no encoding (R48, R49). -/

theorem test_wf_key_no_bytes : (Instr.key false 0 0#64).wellFormed = false := by decide
theorem test_wf_key_nine_bytes : (Instr.key true 9 0#64).wellFormed = false := by decide
theorem test_wf_final_eight_bytes : (Instr.final 8 0#64).wellFormed = false := by decide
theorem test_wf_accepts : (Instr.key true 8 0#64).wellFormed = true ∧ (Instr.final 7 0#64).wellFormed = true := by decide

/-! Decoding of words written out bit by bit from R46 and R51 (T34). -/

theorem test_decode_nop : decode ⟨0b00000000000000000000000000000000#32, 7#64⟩ = .instr .nop := by decide
theorem test_decode_key_start_8 :
    decode ⟨0b00000000000000000000011100010001#32, 7#64⟩ = .instr (.key true 8 7#64) := by decide
theorem test_decode_key_7 :
    decode ⟨0b00000000000000000000011000000001#32, 7#64⟩ = .instr (.key false 7 7#64) := by decide
theorem test_decode_init : decode ⟨0b00000000000000000000000000000010#32, 7#64⟩ = .instr .init := by decide
theorem test_decode_block : decode ⟨0b00000000000000000000000000000011#32, 7#64⟩ = .instr (.block 7#64) := by decide
theorem test_decode_final_7 :
    decode ⟨0b00000000000000000000011100000100#32, 7#64⟩ = .instr (.final 7 7#64) := by decide
theorem test_decode_clr : decode ⟨0b00000000000000000000000000000101#32, 7#64⟩ = .instr .clr := by decide
theorem test_decode_reserved_op : decode ⟨0x00000006#32, 0#64⟩ = .illegal .reservedOp := by decide
theorem test_decode_nop_with_s : decode ⟨0x00000010#32, 0#64⟩ = .illegal .startOutsideKey := by decide
theorem test_decode_init_with_cnt : decode ⟨0x00000102#32, 0#64⟩ = .illegal .countOutsideKeyAndFinal := by decide
theorem test_decode_final_bit_11 : decode ⟨0x00000804#32, 0#64⟩ = .illegal .reservedBits := by decide
theorem test_decode_init_bit_31 : decode ⟨0x80000002#32, 0#64⟩ = .illegal .reservedBits := by decide
theorem test_encode_key : encode (.key true 8 7#64) = ⟨0x00000711#32, 7#64⟩ := by decide
theorem test_encode_final : encode (.final 1 7#64) = ⟨0x00000104#32, 7#64⟩ := by decide
theorem test_table_word : decodeTableWord 32 0x601 = some (.key false 7 0#64) := by decide
theorem test_table_word_data : decodeTableWord 96 (0x1234 * 2 ^ 32 + 3) = some (.block 0x1234#64) := by decide
theorem test_table_word_illegal : decodeTableWord 32 0x21 = none := by decide

/-! Datapath vectors (T3 to T9). -/

theorem test_add64_wraps : add64 0xffffffffffffffff#64 0xffffffffffffffff#64 = 0xfffffffffffffffe#64 := by decide
theorem test_rotl64_21 : rotl64 0x0123456789abcdef#64 21 = 0xacf13579bde02468#64 := by decide
theorem test_rotl64_top_bit : rotl64 0x8000000000000000#64 13 = 0x0000000000001000#64 := by decide

/-- The state INIT seeds for the key 00..0f (T6, T45). -/
def seeded : Perm := ⟨0x7469686173716475#64, 0x6b617f6d656e6665#64, 0x6b7f62616d677361#64, 0x7b6b696e727e6c7b#64⟩

theorem test_initState : initState 0x0706050403020100#64 0x0f0e0d0c0b0a0908#64 = seeded := by decide
theorem test_firstHalf : firstHalf seeded =
    ⟨0xd8dfcadadfcae7ce#64, 0xf0274b63141367b6#64, 0xe6eacbcfdfe5dfdc#64, 0x8f84b9b1b39ea4b7#64⟩ := by decide
theorem test_sipRound : sipRound seeded =
    ⟨0x6864848c93698c85#64, 0x41d43f143c94a7dc#64, 0xf3f94792d7121732#64, 0x5e52f75805987c12#64⟩ := by decide
theorem test_sipRound_v3 : sipRound ⟨0#64, 0#64, 0#64, 1#64⟩ =
    ⟨0x0000000000010001#64, 0x0000000000000001#64, 0x0000000100000000#64, 0x0000002000210001#64⟩ := by decide
theorem test_compress : compress seeded 0x0706050403020100#64 =
    ⟨0x4a017198de0a59e0#64, 0x0d52f6f62a4f59a4#64, 0x634cb3577b01fd3d#64, 0xa5224d6f55c7d9c8#64⟩ := by decide
theorem test_pad_lanes : pad 0x0706050403020100#64 3 0x03#8 = 0x0300000000020100#64 := by decide
theorem test_pad_full_tail : pad 0xffffffffffffffff#64 7 0x07#8 = 0x07ffffffffffffff#64 := by decide
theorem test_finalize_zero : finalize Perm.zero =
    ⟨0x3ba8d6249abb9447#64, 0x7f08abb380e0fb63#64, 0xce48a7ccd3b5a5d2#64, 0xb6a43107099e1056#64⟩ := by decide
theorem test_extract : extract (finalize Perm.zero) = 0x3c4ceb5cc070daa0#64 := by decide

/-- The key 00..0f. -/
def key0f : KeyBuf :=
  #v[0x00#8, 0x01#8, 0x02#8, 0x03#8, 0x04#8, 0x05#8, 0x06#8, 0x07#8,
     0x08#8, 0x09#8, 0x0a#8, 0x0b#8, 0x0c#8, 0x0d#8, 0x0e#8, 0x0f#8]

/-- The message bytes 00..0e. -/
def msg0e : List Byte :=
  [0x00#8, 0x01#8, 0x02#8, 0x03#8, 0x04#8, 0x05#8, 0x06#8, 0x07#8,
   0x08#8, 0x09#8, 0x0a#8, 0x0b#8, 0x0c#8, 0x0d#8, 0x0e#8]

/-- The source's known-answer vector (T1). -/
theorem test_known_answer : sipHash24 key0f [] = 0x726fdb47dd0e0e31#64 := by decide
/-- T20. -/
theorem test_fifteen_bytes : sipHash24 key0f msg0e = 0xa129ca6149be45e5#64 := by decide
/-- T11. -/
theorem test_one_byte : sipHash24 key0f [0x00#8] = 0x74f839c593dc67fd#64 := by decide

/-! One step of each command. -/

/-- The state after LOADKEY 00..0f. -/
def keyed : State := { State.reset with keybuf := key0f, klen := 16#5 }

/-- The state after LOADKEY 00..0f and INIT (T45). -/
def opened : State := { keyed with v := seeded, phase := .absorb }

/-- The state after LOADKEY 00..0f, INIT and FINAL 0 (T1). -/
def finished : State := { keyed with phase := .finished, digest := 0x726fdb47dd0e0e31#64 }

/-- The state after INIT with a key of 15 bytes (T40), the bytes left out. -/
def failed : State := { State.reset with klen := 15#5, err := .keyLength, faulted := true }

/-- The host presents `c`. -/
def offering (c : Command) (s : State) : State := s.withProgram [c]

/-- A reading of the state a step gives. -/
def after {α : Type} (s : State) (f : State → α) : Option α := (nextState? (step s)).map f

theorem test_nop : after (offering ⟨0#32, 5#64⟩ opened) (fun t => t) = some opened := by decide
/-- R80's example. -/
theorem test_key_first : after (offering ⟨0x711#32, 0x0706050403020100#64⟩ State.reset)
    (fun t => (status t, keyByte t.keybuf 7, keyByte t.keybuf 8)) = some (0x00000800#32, 0x07#8, 0#8) := by decide
/-- T41: the 17th byte is counted and not stored. -/
theorem test_key_overfull : after (offering ⟨0x001#32, 0x10#64⟩ keyed)
    (fun t => (status t, t.keybuf)) = some (0x00001100#32, key0f) := by decide
/-- T45. -/
theorem test_init : after (offering ⟨2#32, 9#64⟩ keyed) (fun t => (t.v, status t)) = some (seeded, 0x00001002#32) := by decide
/-- T54. -/
theorem test_init_unkeyed : after (offering ⟨2#32, 0#64⟩ State.reset) (fun t => (status t, t.faulted)) =
    some (0x00000020#32, true) := by decide
/-- T48. -/
theorem test_block : after (offering ⟨3#32, 0x0706050403020100#64⟩ opened) (fun t => (t.v.v3, t.m, status t)) =
    some (0xa5224d6f55c7d9c8#64, 0x0706050403020100#64, 0x00081002#32) := by decide
/-- T50. -/
theorem test_block_finished : after (offering ⟨3#32, 0x1234#64⟩ finished) (fun t => (status t, t.digest)) =
    some (0x00001034#32, 0x726fdb47dd0e0e31#64) := by decide
/-- T49: lanes 1 to 7 are ignored. -/
theorem test_final_garbage : after (offering ⟨0x104#32, 0xffffffffffffff00#64⟩ opened) (fun t => (t.digest, status t)) =
    some (0x74f839c593dc67fd#64, 0x00011004#32) := by decide
/-- R91: the state is discarded. -/
theorem test_final_discards : after (offering ⟨0x004#32, 0#64⟩ opened) (fun t => t) = some finished := by decide
/-- T40: the gate. -/
theorem test_gate : after (offering ⟨4#32, 0#64⟩ failed) (fun t => t) = some failed := by decide
/-- R102's example. -/
theorem test_clr : after (offering ⟨5#32, 0#64⟩ failed) (fun t => (status t, t.faulted)) =
    some (0x00000f00#32, true) := by decide
/-- T53: ILLEGAL_CMD and not SEQUENCE. -/
theorem test_illegal : after (offering ⟨0x804#32, 0#64⟩ State.reset) status = some 0x00000010#32 := by decide
theorem test_fetch_word : (nextState? (step (State.reset.withFetchWord 32 0x711))).map (fun t => (t.klen, t.program)) =
    some (8#5, []) := by decide
theorem test_wait : after opened (fun t => t) = some opened := by decide

/-! Ports (T54, R41, R137). -/

/-- All latencies 1, but for FINAL. -/
def lats : Config.Latencies := ⟨1, 1, 1, 1, 3, 1, 1⟩

/-- Parameters for the port tests. -/
def params : Config.Params := ⟨lats, 1, .synchronous, 2⟩

theorem test_port_in_flight : (nextState? (systemCycles params [true, true, false] (offering ⟨4#32, 0#64⟩ opened))).map outputs =
    some ⟨false, 0x00001003#32, 0#64⟩ := by decide
theorem test_port_completes : (nextState? (systemCycles params [true, true, false, true] (offering ⟨4#32, 0#64⟩ opened))).map
    outputs = some ⟨true, 0x00001004#32, 0x726fdb47dd0e0e31#64⟩ := by decide
theorem test_port_reset_in_flight :
    (nextState? (cycle params ⟨true, true, 4#32, 0#64⟩ (opened.accept ⟨4#32, 0#64⟩ 1))).map (fun t => t) = some State.reset := by
  decide

/-! Assembly notation (R54 to R56, P2). -/

theorem test_read_word : readLine ".word 0x00000731, 0x0706050403020100   ; KEY.S 8 with reserved bit 5" =
    .code (.word 0x731#32 (.number 0x0706050403020100#64)) := by decide
/-- The tail line of R56's ABSORB for a length that is a multiple of 8. -/
theorem test_read_empty_list :
    readLine (String.ofList ("FINAL 0, ".toList ++ [braceOpen, braceClose])) = .code (.final 0 (some (.bytes []))) ∧
    (AsmLine.final 0 (some (.bytes []))).assemble = some ⟨0x00000004#32, 0#64⟩ := by decide
theorem test_read_final : readLine "final 0" = .code (.final 0 none) := by decide
theorem test_expand_hash : (assembleAll (Pseudo.hash key0f msg0e).expand) =
    some [⟨0x711#32, 0x0706050403020100#64⟩, ⟨0x701#32, 0x0f0e0d0c0b0a0908#64⟩, ⟨2#32, 0#64⟩,
      ⟨3#32, 0x0706050403020100#64⟩, ⟨0x704#32, 0x000e0d0c0b0a0908#64⟩] := by decide

/-! Witnesses: states and operands that meet the hypotheses of each statement that has some. -/

theorem witness_DecodeOfEncode : (Instr.key true 1 5#64).wellFormed = true ∧ (Instr.key false 8 5#64).wellFormed = true ∧
    (Instr.final 0 5#64).wellFormed = true ∧ (Instr.final 7 5#64).wellFormed = true := by decide
theorem witness_EncodeOfDecode : decode ⟨0x701#32, 5#64⟩ = .instr (.key false 8 5#64) ∧ decode ⟨0#32, 5#64⟩ = .instr .nop := by
  decide
theorem witness_DecoderMatchesExactlyOneRow : decode ⟨0x711#32, 5#64⟩ = .instr (.key true 8 5#64) ∧
    decode ⟨3#32, 5#64⟩ = .instr (.block 5#64) ∧ decode ⟨0x704#32, 5#64⟩ = .instr (.final 7 5#64) ∧
    decode ⟨0xffffffff#32, 5#64⟩ = .illegal .reservedOp := by decide
theorem witness_IllegalWordsAreThoseListed : decode ⟨0x10#32, 5#64⟩ = .illegal .startOutsideKey ∧
    State.reset.err = .none := by decide
theorem witness_IgnoredLanesHaveNoEffect : (∀ j, j < 8 → lane 7#64 j = lane 7#64 j) ∧
    (∀ j, j < 1 → lane 0x00ff#64 j = lane 0x11ff#64 j) ∧ 0x00ff#64 ≠ 0x11ff#64 := by decide
theorem witness_StepRunsDecodedCommand :
    ((offering ⟨5#32, 0#64⟩ keyed).busy = false ∧ (offering ⟨5#32, 0#64⟩ keyed).program = [⟨5#32, 0#64⟩] ∧
      decode ⟨5#32, 0#64⟩ = .instr .clr) ∧
    ((offering ⟨6#32, 0#64⟩ keyed).busy = false ∧ decode ⟨6#32, 0#64⟩ = .illegal .reservedOp) ∧
    ((keyed.accept ⟨5#32, 0#64⟩ 1).busy = true ∧ decode (keyed.accept ⟨5#32, 0#64⟩ 1).latch = .instr .clr) ∧
    decode (keyed.accept ⟨6#32, 0#64⟩ 1).latch = .illegal .reservedOp ∧ keyed.busy = false ∧ keyed.program = [] := by
  decide
theorem witness_FetchWordRunsNext : decodeTableWord 32 5 = some .clr := by decide
theorem witness_KeyStoresBytesAndCounts : State.reset.err = .none ∧ State.reset.phase ≠ .absorb ∧ opened.err = .none ∧
    opened.phase = .absorb := by decide
theorem witness_InitSeedsOrRefuses : (opened.err = .none ∧ opened.phase = .absorb) ∧
    (State.reset.err = .none ∧ State.reset.phase ≠ .absorb ∧ State.reset.klen ≠ 16#5) ∧
    keyed.err = .none ∧ keyed.phase ≠ .absorb ∧ keyed.klen = 16#5 := by decide
theorem witness_BlockAbsorbsOneWord : (opened.err = .none ∧ opened.phase = .absorb) ∧ finished.err = .none ∧
    finished.phase ≠ .absorb := by decide
theorem witness_FinalExtractsDigest : (opened.err = .none ∧ opened.phase = .absorb) ∧ keyed.err = .none ∧
    keyed.phase ≠ .absorb := by decide
theorem witness_ErrorsRaisedExactlyWhen : keyed.err = .none ∧ failed.err ≠ .none := by decide
theorem witness_ErrorsArePrecise :
    nextState? (runCommand ⟨2#32, 0#64⟩ State.reset) = some (State.reset.withError .keyLength) ∧
    State.reset.err = .none ∧ (State.reset.withError .keyLength).err ≠ .none := by decide
theorem witness_GateIgnoresAllButClr : failed.err ≠ .none ∧ ∀ c ∈ [(⟨2#32, 0#64⟩ : Command), ⟨6#32, 0#64⟩], c.cmd ≠ 5#32 := by
  decide
theorem witness_OnlyClrOrResetRecovers : failed.err ≠ .none ∧
    nextState? (runCommand ⟨5#32, 0#64⟩ failed) = some failed.recover ∧
    nextState? (runCommand ⟨0#32, 0#64⟩ failed) = some failed := by decide
theorem witness_PhaseTransitions :
    (nextState? (runCommand ⟨2#32, 0#64⟩ keyed)).map (fun t => (t.err, t.phase)) = some (.none, .absorb) ∧
    (nextState? (runCommand ⟨3#32, 0#64⟩ opened)).map (fun t => (t.err, t.phase)) = some (.none, .absorb) ∧
    (nextState? (runCommand ⟨4#32, 0#64⟩ opened)).map (fun t => (t.err, t.phase)) = some (.none, .finished) ∧
    (nextState? (runCommand ⟨5#32, 0#64⟩ opened)).map (fun t => (t.err, t.phase)) = some (.none, .idle) ∧
    (nextState? (runCommand ⟨0#32, 0#64⟩ opened)).map (fun t => (t.err, t.phase)) = some (.none, .absorb) ∧
    (nextState? (runCommand ⟨1#32, 0#64⟩ finished)).map (fun t => (t.err, t.phase)) = some (.none, .finished) ∧
    (nextState? (runCommand ⟨2#32, 0#64⟩ opened)).map (fun t => (t.err, t.phase)) = some (.sequence, .absorb) := by decide
theorem witness_RegistersHaveTheirWriters :
    (nextState? (runCommand ⟨3#32, 1#64⟩ opened)).map (fun t => decide (t.m ≠ opened.m)) = some true ∧
    (nextState? (runCommand ⟨1#32, 1#64⟩ keyed)).map (fun t => decide (t.klen ≠ keyed.klen)) = some true ∧
    (nextState? (runCommand ⟨4#32, 1#64⟩ opened)).map (fun t => decide (t.digest ≠ opened.digest)) = some true ∧
    (nextState? (runCommand ⟨5#32, 1#64⟩ failed)).map (fun t => decide (t.err = .none)) = some true := by decide
/-- The open invocation with a BLOCK presented satisfies the premises of the step invariants. -/
theorem witness_StepKeepsVisibleInvariants :
    (offering ⟨3#32, 1#64⟩ opened).Sound ∧ (offering ⟨3#32, 1#64⟩ opened).LatchClean ∧
    (nextState? (step (offering ⟨3#32, 1#64⟩ opened))).isSome = true :=
  ⟨⟨by decide, by decide, by decide, by decide⟩, fun _ => ⟨rfl, rfl, rfl⟩, by decide⟩
theorem witness_ResetSatisfiesInvariants : (offering ⟨3#32, 1#64⟩ State.reset).ResetLaunch := rfl
/-- A BLOCK in flight satisfies the premises at the ports, and the cycle answers a next state. -/
theorem witness_PortsKeepVisibleInvariants :
    (opened.accept ⟨3#32, 1#64⟩ 1).Sound ∧ (opened.accept ⟨3#32, 1#64⟩ 1).LatchClean ∧
    portCycle params ⟨true, true, 0#32, 0#64⟩ ⟨opened.accept ⟨3#32, 1#64⟩ 1, none⟩ = .next ⟨State.reset, none⟩ :=
  ⟨⟨by decide, by decide, by decide, by decide⟩, fun h => by simp at h, rfl⟩
theorem witness_KeyBufferFillsFromFront : State.reset.KeyTailZero ∧
    (nextState? (step (offering ⟨0x711#32, 1#64⟩ State.reset))).isSome = true :=
  ⟨fun i hi _ => keyByte_zero i hi, by decide⟩
theorem witness_FaultMarkRecordsEveryError : failed.ErrMarked ∧
    (nextState? (step (offering ⟨5#32, 1#64⟩ failed))).isSome = true ∧
    (nextState? (runCommand ⟨2#32, 1#64⟩ State.reset)).map (fun t => t.faulted) = some true :=
  ⟨fun _ => rfl, by decide, by decide⟩
theorem witness_ResetGivesResetValues : (⟨true, true, 3#32, 0#64⟩ : PortIn).rst = true := rfl
theorem witness_RotationMovesEachBit : (0 < 1 ∧ 1 < 64) ∧ (0 < 63 ∧ 63 < 64) ∧
    RoundStmt.rot .v2 32 ∈ firstHalfStmts ++ secondHalfStmts ∧
    RoundStmt.rotXor .v3 21 .v0 ∈ firstHalfStmts ++ secondHalfStmts := by decide
theorem witness_RoundEngineAnyRate : (1 ≤ params.roundsPerCycle ∧ 4 ≤ params.roundsPerCycle * 4) ∧
    params.roundsPerCycle * 3 ≤ 4 := by decide
theorem witness_MixingFunctionsSpelledOut : sipRound (sipRound ⟨0#64, 0#64, 0#64, 0#64 ^^^ 0#64⟩) = ⟨0#64, 0#64, 0#64, 0#64⟩ := by
  decide
theorem witness_SipRoundFormsAgree : add64 1#64 0#64 = 1#64 ∧ rotl64 0#64 13 ^^^ 1#64 = 1#64 := by decide
theorem witness_PadKeepsTailAndLengthByte : (7 ≤ 7) ∧ (6 < 7) ∧ (0 ≤ 7 ∧ 0 ≤ 6 ∧ 6 ≤ 6) := by decide
theorem witness_CommandRoundCountsFixed :
    (nextState? (runCommand ⟨3#32, 1#64⟩ opened)).map (fun t => t.err) = some .none ∧
    (nextState? (runCommand ⟨4#32, 1#64⟩ opened)).map (fun t => t.err) = some .none ∧
    (nextState? (runCommand ⟨2#32, 1#64⟩ keyed)).map (fun t => t.err) = some .none ∧
    (nextState? (runCommand ⟨3#32, 1#64⟩ keyed)).map (fun t => t.err) = some .sequence ∧
    (nextState? (runCommand ⟨3#32, 1#64⟩ failed)).map (fun t => t.err) = some .keyLength ∧
    opened.err = .none ∧ keyed.err = .none ∧ failed.err ≠ .none := by decide
theorem witness_HashSequenceComputesSipHash24 : (State.reset.busy = false ∧ State.reset.err = .none ∧
    State.reset.phase ≠ .absorb) ∧ finished.busy = false ∧ finished.err = .none ∧ finished.phase ≠ .absorb ∧
    finished.keybuf = key0f ∧ finished.klen = 16#5 := by decide
theorem witness_InvocationsLeaveOnlyTheKey : keyed.err = .none ∧ finished.err = .none ∧ keyed.phase ≠ .absorb ∧
    finished.phase ≠ .absorb ∧ keyed.klen = 16#5 ∧ finished.klen = 16#5 ∧ keyed.keybuf = finished.keybuf ∧
    (nextState? (runCommands [⟨2#32, 0#64⟩, ⟨4#32, 0#64⟩] keyed)).isSome = true ∧
    (nextState? (runCommands [⟨2#32, 0#64⟩, ⟨4#32, 0#64⟩] finished)).isSome = true := by decide
theorem witness_NoMessageIsTooLong : opened.err = .none ∧ opened.phase = .absorb := by decide
theorem witness_NewKeyNeedsStart : (keyed.err = .none ∧ keyed.phase ≠ .absorb ∧ keyed.klen = 16#5) ∧
    opened.err = .none ∧ opened.phase = .absorb := by decide
theorem witness_FinishedDigestStaysValid : finished.phase = .finished ∧
    (∀ c ∈ [(⟨3#32, 0#64⟩ : Command), ⟨4#32, 0#64⟩], decode c ≠ .instr .init ∧ decode c ≠ .instr .clr) ∧
    (nextState? (runCommands [⟨3#32, 0#64⟩, ⟨4#32, 0#64⟩] finished)).isSome = true ∧ finished.busy = false := by decide

/-- `opened` under another key. -/
def openedOther : State := { opened with keybuf := KeyBuf.zero, v := ⟨1#64, 2#64, 3#64, 4#64⟩ }

theorem witness_KeyReachesHostOnlyThroughDigest : opened.SamePublic openedOther ∧ opened.keybuf ≠ openedOther.keybuf ∧
    (nextState? (runCommands [⟨3#32, 1#64⟩] opened)).isSome = true ∧
    (nextState? (runCommands [⟨3#32, 1#64⟩] openedOther)).isSome = true ∧
    (∀ c ∈ [(⟨3#32, 1#64⟩ : Command)], ∀ n d, decode c ≠ .instr (.final n d)) :=
  ⟨⟨rfl, rfl, rfl, rfl, rfl, rfl, rfl, rfl, rfl, rfl⟩, by decide, by decide, by decide, by
    intro c hc n d h
    simp only [List.mem_singleton] at hc
    subst hc
    simp [decode] at h⟩
theorem witness_ResetPermutationStateIsNeverSeen : keyed.phase ≠ .absorb ∧
    (nextState? (runCommands [⟨2#32, 0#64⟩, ⟨4#32, 0#64⟩] keyed)).isSome = true ∧
    (nextState? (runCommands [⟨2#32, 0#64⟩, ⟨4#32, 0#64⟩] { keyed with v := seeded, m := 9#64 })).isSome = true := by decide
theorem witness_PortsRefineCommandSteps : (offering ⟨3#32, 1#64⟩ opened).LatchClean ∧
    (opened.accept ⟨3#32, 1#64⟩ 2).LatchClean := ⟨fun _ => ⟨rfl, rfl, rfl⟩, fun h => by simp at h⟩
theorem witness_CommandTakesItsLatency : params.wf ∧ (offering ⟨4#32, 0#64⟩ opened).AtBoundary ∧
    (offering ⟨4#32, 0#64⟩ opened).program = [⟨4#32, 0#64⟩] ∧
    [true, false, true].length = latency params.lat ⟨4#32, 0#64⟩ (offering ⟨4#32, 0#64⟩ opened) :=
  ⟨by decide, ⟨rfl, rfl, rfl⟩, rfl, by decide⟩
theorem witness_InputsInFlightAreNotSampled : (opened.accept ⟨3#32, 1#64⟩ 2).busy = true := rfl
/-- A host that changes its offer is refused; one that keeps or withdraws it is not. -/
theorem witness_BrokenHandshakeHasNoMove :
    breaksHandshake (some ⟨3#32, 1#64⟩) ⟨false, true, 3#32, 2#64⟩ = true ∧
    breaksHandshake (some ⟨3#32, 1#64⟩) ⟨false, true, 3#32, 1#64⟩ = false ∧
    breaksHandshake (some ⟨3#32, 1#64⟩) ⟨false, false, 0#32, 0#64⟩ = false ∧
    nextHeld ⟨false, true, 3#32, 2#64⟩ (opened.accept ⟨3#32, 1#64⟩ 2) = some ⟨3#32, 2#64⟩ := by decide
theorem witness_RunEndsWithProgramDone : (offering ⟨3#32, 1#64⟩ opened).busy = false ∧
    (offering ⟨3#32, 1#64⟩ opened).program.length = 1 := by decide
theorem witness_DataOperandsFillLanes : [0x01#8].length ≤ 8 ∧ 8 < msg0e.length := by decide
theorem witness_AssemblyLinesEncode : (1 ≤ 1 ∧ 1 ≤ 8) ∧ (1 ≤ 8 ∧ 8 ≤ 8) ∧ ¬(1 ≤ 0 ∧ 0 ≤ 8) ∧ ¬(1 ≤ 9 ∧ 9 ≤ 8) ∧ 7 ≤ 7 ∧ 7 < 8 := by
  decide
theorem witness_CoresShareNoState : (0 : Fin 2) ≠ 1 := by decide

end Sys2Proof.Tests
end

/-! SUPPORT. How an instruction moves PHASE (R16): one lemma per row of the transition table. -/

namespace Sys2Proof.Machine

section

variable {s t : State}

/-- A command whose word decodes has an effect of its instruction. -/
theorem runCommand_effect {c : Command} {i : Instr} (h : runCommand c s = .next t) (hd : decode c = .instr i) :
    Effect s i t :=
  exec_effect (runCommand_instr hd s ▸ h)

/-- Every effect that moves PHASE leaves ERR at NONE, which it needed or, for CLR, wrote itself. -/
theorem Effect.phase_eq_of_err {i : Instr} (h : Effect s i t) (ht : t.err ≠ .none) : t.phase = s.phase := by
  cases h with
  | init he | final _ _ he => exact absurd he ht
  | clr => exact absurd rfl ht
  | _ => rfl

theorem runCommand_phase_eq_of_err {c : Command} (h : runCommand c s = .next t) (ht : t.err ≠ .none) :
    t.phase = s.phase := by
  rcases runCommand_next h with ⟨i, -, he⟩ | ⟨why, -, ⟨-, rfl⟩ | ⟨-, rfl⟩⟩
  · exact he.phase_eq_of_err ht
  · exact State.withError_phase ..
  · rfl

theorem Effect.nop_phase (h : Effect s .nop t) : t.phase = s.phase := by
  cases h <;> rfl

theorem Effect.key_phase {st : Bool} {nk : Nat} {d : Word} (h : Effect s (.key st nk d) t) : t.phase = s.phase := by
  cases h <;> rfl

theorem Effect.clr_phase (h : Effect s .clr t) : t.phase = .idle := by
  cases h with
  | gated _ _ hi => exact absurd rfl hi
  | clr => rfl

theorem Effect.init_phase (h : Effect s .init t) (ht : t.err = .none) : s.phase ≠ .absorb ∧ t.phase = .absorb := by
  cases h with
  | gated _ hs => exact absurd ht hs
  | initInAbsorb | initKeyLength => simp at ht
  | init _ hp => exact ⟨hp, rfl⟩

theorem Effect.block_phase {d : Word} (h : Effect s (.block d) t) (ht : t.err = .none) :
    s.phase = .absorb ∧ t.phase = .absorb := by
  cases h with
  | gated _ hs => exact absurd ht hs
  | blockOutside => simp at ht
  | block _ _ hp => exact ⟨hp, hp⟩

theorem Effect.final_phase {n : Nat} {d : Word} (h : Effect s (.final n d) t) (ht : t.err = .none) :
    s.phase = .absorb ∧ t.phase = .finished := by
  cases h with
  | gated _ hs => exact absurd ht hs
  | finalOutside => simp at ht
  | final _ _ _ hp => exact ⟨hp, rfl⟩

end

/-- Settles O20: from the inversion lemma of the command step, one row of R16's table at a time. -/
theorem phaseTransitions : Obligations.PhaseTransitions := by
  refine ⟨⟨rfl, rfl, rfl⟩, fun c s t h ht => runCommand_phase_eq_of_err h ht, fun c s t h ht => ?_, fun s => rfl⟩
  exact ⟨fun hd => (runCommand_effect h hd).init_phase ht,
    fun d hd => (runCommand_effect h hd).block_phase ht,
    fun n d hd => (runCommand_effect h hd).final_phase ht,
    fun hd => (runCommand_effect h hd).clr_phase,
    fun hd => (runCommand_effect h hd).nop_phase,
    fun st nk d hd => (runCommand_effect h hd).key_phase⟩

end Sys2Proof.Machine

/-! SUPPORT. STATUS as fields at bit positions (R20): what reading some bits of a word gives where they are a field, and
where they lie below or above it. -/

namespace Sys2Proof.Machine

/-- The word that holds `x` from bit `k` up and 0 elsewhere. -/
def fieldAt {w : Nat} (k : Nat) (x : BitVec w) : Word32 := x.setWidth 32 <<< k

theorem status_eq_fields (s : State) :
    status s = fieldAt 0 (BitVec.ofBool s.busy) ||| fieldAt 1 s.phase.code ||| fieldAt 4 s.err.code |||
      fieldAt 8 s.klen ||| fieldAt 16 s.len8 := by
  simp [status, fieldAt]

section

variable {w k : Nat} (x : BitVec w)

theorem fieldAt_getLsbD (i : Nat) :
    (fieldAt k x).getLsbD i = (decide (i < 32) && (decide (k ≤ i) && x.getLsbD (i - k))) := by
  simp only [fieldAt, BitVec.getLsbD_shiftLeft, BitVec.getLsbD_setWidth]
  grind

theorem fieldAt_extract_same (h : k + w ≤ 32) : (fieldAt k x).extractLsb' k w = x := by
  refine BitVec.eq_of_getLsbD_eq fun i hi => ?_
  have hlt : k + i < 32 := by omega
  rw [BitVec.getLsbD_extractLsb', fieldAt_getLsbD]
  simp [hi, hlt]

theorem fieldAt_extract_below {off len : Nat} (h : off + len ≤ k) : (fieldAt k x).extractLsb' off len = 0#len := by
  refine BitVec.eq_of_getLsbD_eq fun i hi => ?_
  have hk : ¬ k ≤ off + i := by omega
  simp [fieldAt_getLsbD, hk]

theorem fieldAt_extract_above {off len : Nat} (h : k + w ≤ off) : (fieldAt k x).extractLsb' off len = 0#len := by
  refine BitVec.eq_of_getLsbD_eq fun i hi => ?_
  have hx : x.getLsbD (off + i - k) = false := BitVec.getLsbD_of_ge x _ (by omega)
  simp [fieldAt_getLsbD, hx]

end

/-- Settles O27: read at any of R20's positions, each of the five fields is there, below or above. -/
theorem statusFieldsInPlace : Obligations.StatusFieldsInPlace := by
  intro s
  simp [status_eq_fields, BitVec.extractLsb'_or, fieldAt_extract_same, fieldAt_extract_below, fieldAt_extract_above]

end Sys2Proof.Machine

/-! SUPPORT. The little-endian word bit by bit and as a number (R32): the bytes enter one at a time, each above the ones
before it. -/

namespace Sys2Proof.Machine

/-- LE64 of the first `n` bytes, the later lanes 0. -/
def lePrefix (b : Nat → Byte) : Nat → Word
  | 0 => 0#64
  | n + 1 => lePrefix b n ||| ((b n).setWidth 64 <<< (8 * n))

section

variable (b : Nat → Byte)

theorem le64_eq_lePrefix : le64 b = lePrefix b 8 := by
  simp [le64, lePrefix]

theorem lePrefix_getLsbD (n i : Nat) :
    (lePrefix b n).getLsbD i = (decide (i < 64) && decide (i < 8 * n) && (b (i / 8)).getLsbD (i % 8)) := by
  induction n with
  | zero => simp [lePrefix]
  | succ n ih =>
    simp only [lePrefix, BitVec.getLsbD_or, ih, BitVec.getLsbD_shiftLeft, BitVec.getLsbD_setWidth]
    rcases Nat.lt_or_ge i (8 * n) with hlow | hlow
    · have hi : i < 8 * (n + 1) := by omega
      simp [hlow, hi]
    · rcases Nat.lt_or_ge i (8 * (n + 1)) with hin | habove
      · have hdiv : i / 8 = n := by omega
        have hmod : i % 8 = i - 8 * n := by omega
        have hsub : i - 8 * n < 64 := by omega
        simp [hlow.not_gt, hin, hdiv, hmod, hsub]
      · have hbyte : (b n).getLsbD (i - 8 * n) = false := BitVec.getLsbD_of_ge _ _ (by omega)
        simp [hlow.not_gt, habove.not_gt, hbyte]

theorem lePrefix_toNat_lt (n : Nat) : (lePrefix b n).toNat < 2 ^ (8 * n) := by
  refine Nat.lt_pow_two_of_testBit _ fun i hi => ?_
  simp [BitVec.testBit_toNat, lePrefix_getLsbD, hi.not_gt]

/-- A byte entering above the bits already there adds its value at its weight. -/
theorem lePrefix_succ_toNat {n : Nat} (h : n < 8) :
    (lePrefix b (n + 1)).toNat = (lePrefix b n).toNat + (b n).toNat * 256 ^ n := by
  have hfit : (b n).toNat <<< (8 * n) < 2 ^ 64 := by
    rw [Nat.shiftLeft_eq]
    calc (b n).toNat * 2 ^ (8 * n) < 2 ^ 8 * 2 ^ (8 * n) := by gcongr; exact (b n).isLt
      _ = 2 ^ (8 * (n + 1)) := by ring
      _ ≤ 2 ^ 64 := Nat.pow_le_pow_right (by omega) (by omega)
  have hbyte : ((b n).setWidth 64 <<< (8 * n)).toNat = (b n).toNat <<< (8 * n) := by
    rw [BitVec.toNat_shiftLeft, BitVec.toNat_setWidth_of_le (by omega), Nat.mod_eq_of_lt hfit]
  rw [lePrefix, BitVec.toNat_or, hbyte, Nat.or_comm, ← Nat.shiftLeft_add_eq_or_of_lt (lePrefix_toNat_lt b n),
    Nat.shiftLeft_eq, Nat.pow_mul, Nat.add_comm]

theorem lePrefix_toNat {n : Nat} (h : n ≤ 8) :
    (lePrefix b n).toNat = ∑ i ∈ Finset.range n, (b i).toNat * 256 ^ i := by
  induction n with
  | zero => rfl
  | succ n ih => rw [lePrefix_succ_toNat b h, ih (by omega), Finset.sum_range_succ]

theorem le64_toNat : (le64 b).toNat = ∑ i ∈ Finset.range 8, (b i).toNat * 256 ^ i := by
  rw [le64_eq_lePrefix, lePrefix_toNat b le_rfl]

theorem le64_getLsbD (i : Nat) : (le64 b).getLsbD i = (decide (i < 64) && (b (i / 8)).getLsbD (i % 8)) := by
  simp [le64_eq_lePrefix, lePrefix_getLsbD]

theorem lane_getLsbD (d : Word) (i j : Nat) : (lane d i).getLsbD j = (decide (j < 8) && d.getLsbD (8 * i + j)) := by
  simp [lane, BitVec.getLsbD_extractLsb']

@[simp] theorem lane_le64 {i : Nat} (h : i < 8) : lane (le64 b) i = b i := by
  refine BitVec.eq_of_getLsbD_eq fun j hj => ?_
  have hbit : 8 * i + j < 64 := by omega
  have hdiv : (8 * i + j) / 8 = i := by omega
  have hmod : (8 * i + j) % 8 = j := by omega
  rw [lane_getLsbD, le64_getLsbD, hdiv, hmod]
  simp [hj, hbit]

@[simp] theorem le64_lane (d : Word) : le64 (fun i => lane d i) = d := by
  refine BitVec.eq_of_getLsbD_eq fun i hi => ?_
  rw [le64_getLsbD, lane_getLsbD, Nat.div_add_mod]
  simp [hi, Nat.mod_lt]

end

/-- Settles O31: the value by adding the bytes one at a time, the two inverse laws bit by bit. -/
theorem littleEndianWords : Obligations.LittleEndianWords := by
  refine ⟨fun b => ?_, fun b i hi => lane_le64 b hi, le64_lane⟩
  simp [le64_toNat, Finset.sum_range_succ]

end Sys2Proof.Machine

/-! SUPPORT. The rows of R51 and the words that match them: no word matches two rows, and a decoded word matches the row
of its instruction. -/

namespace Sys2Proof

/-- Two rows of R51 whose patterns agree under both masks are the same row. -/
theorem encodingRows_disjoint : ∀ q ∈ encodingRows, ∀ r ∈ encodingRows,
    q.pattern &&& r.mask = r.pattern &&& q.mask → q = r := by
  decide

/-- No word matches two rows (R51). -/
theorem encodingRow_unique {w : Word32} {q r : EncodingRow} (hq : q ∈ encodingRows) (hr : r ∈ encodingRows)
    (hwq : w &&& q.mask = q.pattern) (hwr : w &&& r.mask = r.pattern) : q = r := by
  refine encodingRows_disjoint q hq r hr ?_
  rw [← hwq, ← hwr, BitVec.and_assoc, BitVec.and_assoc, BitVec.and_comm q.mask]

theorem decode_instr_matches_row {c : Command} {i : Instr} (h : decode c = .instr i) :
    ∃ r ∈ encodingRows, r.mnemonic = i.mnemonic ∧ c.cmd &&& r.mask = r.pattern := by
  rcases decode_instr h with ⟨hw, rfl⟩ | ⟨s, n, hw, rfl⟩ | ⟨hw, rfl⟩ | ⟨hw, rfl⟩ | ⟨n, hw, rfl⟩ | ⟨hw, rfl⟩ <;> rw [hw]
  · exact ⟨⟨"NOP", 0x00000000#32, 0xFFFFFFFF#32⟩, by decide, rfl, rfl⟩
  · obtain ⟨-, hrow, -⟩ := cmdWord_key s n
    exact ⟨⟨"KEY", 0x00000001#32, 0xFFFFF8EF#32⟩, by decide, rfl, hrow⟩
  · exact ⟨⟨"INIT", 0x00000002#32, 0xFFFFFFFF#32⟩, by decide, rfl, rfl⟩
  · exact ⟨⟨"BLOCK", 0x00000003#32, 0xFFFFFFFF#32⟩, by decide, rfl, rfl⟩
  · obtain ⟨-, -, -, -, hrow, -⟩ := cmdWord_final n
    exact ⟨⟨"FINAL", 0x00000004#32, 0xFFFFF8FF#32⟩, by decide, rfl, hrow⟩
  · exact ⟨⟨"CLR", 0x00000005#32, 0xFFFFFFFF#32⟩, by decide, rfl, rfl⟩

theorem decode_instr_matches_only_row {c : Command} {i : Instr} (h : decode c = .instr i) :
    ∃ r ∈ encodingRows, r.mnemonic = i.mnemonic ∧ ∀ q ∈ encodingRows, (c.cmd &&& q.mask = q.pattern ↔ q = r) := by
  obtain ⟨r, hr, hm, hrow⟩ := decode_instr_matches_row h
  exact ⟨r, hr, hm, fun q hq => ⟨fun hwq => encodingRow_unique hq hr hwq hrow, fun he => he ▸ hrow⟩⟩

theorem decode_illegal_matches_no_row {c : Command} {why : IllegalReason} (h : decode c = .illegal why) :
    ∀ q ∈ encodingRows, c.cmd &&& q.mask ≠ q.pattern := by
  have hfull : c.cmd &&& 0xFFFFFFFF#32 = c.cmd := BitVec.and_allOnes
  obtain ⟨hnop, hkey, hinit, hblock, hfinal, hclr⟩ := decode_illegal h
  simp [encodingRows, hfull, hnop, hkey, hinit, hblock, hfinal, hclr]

theorem decode_key_fields {c : Command} {st : Bool} {nk : Nat} {d : Word} (h : decode c = .instr (.key st nk d)) :
    st = fieldS c.cmd ∧ nk = (fieldCnt c.cmd).toNat + 1 ∧ d = c.data := by
  rcases decode_instr h with ⟨-, hi⟩ | ⟨s, n, hw, hi⟩ | ⟨-, hi⟩ | ⟨-, hi⟩ | ⟨n, -, hi⟩ | ⟨-, hi⟩ <;> cases hi
  obtain ⟨-, -, hs, hn⟩ := cmdWord_key st n
  rw [hw, hs, hn]
  exact ⟨rfl, rfl, rfl⟩

theorem decode_block_data {c : Command} {d : Word} (h : decode c = .instr (.block d)) : d = c.data := by
  rcases decode_instr h with ⟨-, hi⟩ | ⟨s, n, -, hi⟩ | ⟨-, hi⟩ | ⟨-, hi⟩ | ⟨n, -, hi⟩ | ⟨-, hi⟩ <;> cases hi
  rfl

theorem decode_final_fields {c : Command} {n : Nat} {d : Word} (h : decode c = .instr (.final n d)) :
    n = (fieldCnt c.cmd).toNat ∧ d = c.data := by
  rcases decode_instr h with ⟨-, hi⟩ | ⟨s, n, -, hi⟩ | ⟨-, hi⟩ | ⟨-, hi⟩ | ⟨n, hw, hi⟩ | ⟨-, hi⟩ <;> cases hi
  obtain ⟨-, -, -, -, -, hn⟩ := cmdWord_final n
  rw [hw, hn]
  exact ⟨rfl, rfl⟩

/-- Settles O4: a decoded word matches its instruction's row, and no word matches two rows. -/
theorem decoderMatchesExactlyOneRow : Obligations.DecoderMatchesExactlyOneRow :=
  ⟨rfl, fun _ _ => decode_instr_matches_only_row, fun _ _ => decode_illegal_matches_no_row,
    fun _ _ _ _ => decode_key_fields, fun _ _ => decode_block_data, fun _ _ _ => decode_final_fields⟩

end Sys2Proof

/-! SUPPORT. The illegal words by their fields (R52): a word free of the listed causes is put together from its fields
and decodes, and no word that decodes has one of the causes. -/

namespace Sys2Proof

/-- A cause of illegality that R52 lists. -/
abbrev HasIllegalCause (w : Word32) : Prop :=
  6 ≤ (fieldOp w).toNat ∨ w &&& 0xFFFFF8E0#32 ≠ 0#32 ∨
    (fieldS w = true ∧ fieldOp w ≠ 1#4) ∨
    (fieldCnt w ≠ 0#3 ∧ fieldOp w ≠ 1#4 ∧ fieldOp w ≠ 4#4)

theorem cmdWord_key_no_cause (s : Bool) (n : BitVec 3) : ¬HasIllegalCause (cmdWord 1#4 s n) := by
  revert s n; decide

theorem cmdWord_final_no_cause (n : BitVec 3) : ¬HasIllegalCause (cmdWord 4#4 false n) := by
  revert n; decide

theorem decode_instr_no_cause {c : Command} {i : Instr} (h : decode c = .instr i) : ¬HasIllegalCause c.cmd := by
  rcases decode_instr h with ⟨hw, -⟩ | ⟨s, n, hw, -⟩ | ⟨hw, -⟩ | ⟨hw, -⟩ | ⟨n, hw, -⟩ | ⟨hw, -⟩ <;> rw [hw]
  · decide
  · exact cmdWord_key_no_cause s n
  · decide
  · decide
  · exact cmdWord_final_no_cause n
  · decide

/-- The values of OP that R47 gives a command, besides KEY's and FINAL's. -/
theorem op_without_fields : ∀ op : BitVec 4, op.toNat < 6 → op ≠ 1#4 → op ≠ 4#4 →
    op = 0#4 ∨ op = 2#4 ∨ op = 3#4 ∨ op = 5#4 := by
  decide

theorem exists_instr_of_no_cause {c : Command} (h : ¬HasIllegalCause c.cmd) : ∃ i, decode c = .instr i := by
  obtain ⟨w, d⟩ := c
  simp only [HasIllegalCause, not_or, not_and, not_not, not_le] at h
  obtain ⟨hop, hres, hs, hcnt⟩ := h
  rw [eq_cmdWord hres]
  by_cases hkey : fieldOp w = 1#4
  · rw [hkey]
    exact ⟨_, decode_key ..⟩
  have hs0 : fieldS w = false := Bool.eq_false_iff.mpr fun ht => hkey (hs ht)
  by_cases hfinal : fieldOp w = 4#4
  · rw [hfinal, hs0]
    exact ⟨_, decode_final ..⟩
  have hcnt0 : fieldCnt w = 0#3 := by
    by_contra hn
    exact hfinal (hcnt hn hkey)
  rw [hs0, hcnt0]
  rcases op_without_fields _ hop hkey hfinal with ho | ho | ho | ho <;> rw [ho]
  · exact ⟨.nop, rfl⟩
  · exact ⟨.init, by simp [decode, cmdWord]⟩
  · exact ⟨.block d, by simp [decode, cmdWord]⟩
  · exact ⟨.clr, by simp [decode, cmdWord]⟩

theorem decode_illegal_iff (c : Command) : (∃ why, decode c = .illegal why) ↔ HasIllegalCause c.cmd := by
  constructor
  · rintro ⟨why, hd⟩
    by_contra hc
    obtain ⟨i, hi⟩ := exists_instr_of_no_cause hc
    cases hd.symm.trans hi
  · intro hc
    cases hd : decode c with
    | instr i => exact absurd hc (decode_instr_no_cause hd)
    | illegal why => exact ⟨why, rfl⟩

theorem decode_nop_iff (c : Command) : decode c = .instr .nop ↔ c.cmd = 0x00000000#32 := by
  constructor
  · intro h
    rcases decode_instr h with ⟨hw, -⟩ | ⟨s, n, -, hi⟩ | ⟨-, hi⟩ | ⟨-, hi⟩ | ⟨n, -, hi⟩ | ⟨-, hi⟩
    · exact hw
    all_goals cases hi
  · exact fun hw => if_pos hw

namespace Machine

theorem runCommand_illegal_open {c : Command} {why : IllegalReason} {s : State} (hd : decode c = .illegal why)
    (he : s.err = .none) : runCommand c s = .next (s.withError .illegalCmd) := by
  rw [runCommand_illegal hd, execIllegal, gated_open he, raiseError_eq]

/-- Settles O5: by the causes for the words, by the open gate for the effect. -/
theorem illegalWordsAreThoseListed : Obligations.IllegalWordsAreThoseListed :=
  ⟨decode_illegal_iff, fun _ _ _ => runCommand_illegal_open, decode_nop_iff⟩

end Machine

end Sys2Proof

/-! SUPPORT. Addition and rotation of 64-bit words (R60, R61), and the rotation amounts of SipRound's ten statements. -/

namespace Sys2Proof.Machine

theorem add64_toNat (a b : Word) : (add64 a b).toNat = (a.toNat + b.toNat) % 2 ^ 64 := BitVec.toNat_add a b

/-- Settles O29: addition of bit vectors wraps. -/
theorem additionWrapsSilently : Obligations.AdditionWrapsSilently := add64_toNat

theorem rotl64_eq_rotateLeft (x : Word) {r : Nat} (h : r < 64) : rotl64 x r = x.rotateLeft r := by
  rw [rotl64, BitVec.rotateLeft_def, Nat.mod_eq_of_lt h]

/-- The bits below `r` come round from the top of the word, the others move up by `r`. -/
theorem rotl64_getLsbD (x : Word) {r i : Nat} (hr : r < 64) (hi : i < 64) :
    (rotl64 x r).getLsbD i = x.getLsbD ((i + 64 - r) % 64) := by
  rw [rotl64_eq_rotateLeft x hr, BitVec.getLsbD_rotateLeft_of_le hr]
  rcases Nat.lt_or_ge i r with hlow | hhigh
  · have hidx : (i + 64 - r) % 64 = 64 - r + i := by omega
    simp [hlow, hidx]
  · have hidx : (i + 64 - r) % 64 = i - r := by omega
    simp [hhigh.not_gt, hi, hidx]

/-- The amount a statement of R65 rotates by, where it rotates. -/
def RoundStmt.rotation : RoundStmt → Option Nat
  | .add _ _ => none
  | .rotXor _ r _ => some r
  | .rot _ r => some r

theorem rotation_of_sipRound_stmt : ∀ st ∈ firstHalfStmts ++ secondHalfStmts, ∀ r ∈ st.rotation,
    r ∈ [13, 16, 17, 21, 32] := by
  decide

/-- Settles O30: bit by bit through the library's rotation, and the amounts by going through the ten statements. -/
theorem rotationMovesEachBit : Obligations.RotationMovesEachBit := by
  refine ⟨fun x r _ hr => ⟨rfl, fun i hi => rotl64_getLsbD x hr hi⟩, ?_⟩
  rintro st hst dst src r (rfl | rfl) <;> exact rotation_of_sipRound_stmt _ hst r rfl

end Sys2Proof.Machine

/-! SUPPORT. What each half of SipRound's ten statements computes (R65), and the halves put together (R66). -/

namespace Sys2Proof.Machine

theorem runStmts_append (as bs : List RoundStmt) (x : Perm) : runStmts (as ++ bs) x = runStmts bs (runStmts as x) :=
  List.foldl_append

theorem firstHalf_eq (x : Perm) : firstHalf x =
    ⟨rotl64 (add64 x.v0 x.v1) 32, rotl64 x.v1 13 ^^^ add64 x.v0 x.v1,
      add64 x.v2 x.v3, rotl64 x.v3 16 ^^^ add64 x.v2 x.v3⟩ := rfl

theorem secondHalf_eq (x : Perm) : secondHalf x =
    ⟨add64 x.v0 x.v3, rotl64 x.v1 17 ^^^ add64 x.v2 x.v1,
      rotl64 (add64 x.v2 x.v1) 32, rotl64 x.v3 21 ^^^ add64 x.v0 x.v3⟩ := rfl

theorem sipRound_eq_halves (x : Perm) : sipRound x = secondHalf (firstHalf x) := by
  rw [firstHalf_eq, secondHalf_eq, sipRound]

/-- Settles O32: the ten statements are one half after the other, and each half is known as a function. -/
theorem sipRoundFormsAgree : Obligations.SipRoundFormsAgree := by
  refine ⟨fun x => ⟨?_, (sipRound_eq_halves x).symm⟩, ?_⟩
  · rw [runStmts_append]
    exact (sipRound_eq_halves x).symm
  · rintro v0 v1 v2 v3 _ _ _ _ _ _ _ _ _ _ rfl rfl rfl rfl rfl rfl rfl rfl rfl rfl
    rw [sipRound]

end Sys2Proof.Machine

/-! SUPPORT. Compress and Finalize with their rounds written out (R68, R70). -/

namespace Sys2Proof.Machine

theorem compress_eq (x : Perm) (m : Word) :
    compress x m = { sipRound (sipRound { x with v3 := x.v3 ^^^ m }) with
      v0 := (sipRound (sipRound { x with v3 := x.v3 ^^^ m })).v0 ^^^ m } := rfl

theorem finalize_eq (x : Perm) :
    finalize x = sipRound (sipRound (sipRound (sipRound { x with v2 := x.v2 ^^^ 0xff#64 }))) := rfl

/-- Settles O35: the constants and the extraction by definition, the two mixing functions round by round. -/
theorem mixingFunctionsSpelledOut : Obligations.MixingFunctionsSpelledOut := by
  refine ⟨fun _ _ => rfl, fun v0 v1 v2 v3 m w0 w1 w2 w3 h => ?_, fun _ _ _ _ => finalize_eq _, fun _ _ _ _ => rfl⟩
  simp only [compress_eq, h]

end Sys2Proof.Machine

/-! SUPPORT. Pad lane by lane (R69): the mask keeps a lane whole or clears it, the length byte fills lane 7 alone. -/

namespace Sys2Proof.Machine

@[simp] theorem lane_or (x y : Word) (i : Nat) : lane (x ||| y) i = lane x i ||| lane y i := BitVec.extractLsb'_or

@[simp] theorem lane_and (x y : Word) (i : Nat) : lane (x &&& y) i = lane x i &&& lane y i := BitVec.extractLsb'_and

theorem laneMask_getLsbD (n i : Nat) : (laneMask n).getLsbD i = (decide (i < 64) && decide (i < 8 * n)) := by
  rw [laneMask, BitVec.getLsbD_ofNat, Nat.testBit_two_pow_sub_one]

theorem lane_laneMask (n : Nat) {i : Nat} (h : i < 8) :
    lane (laneMask n) i = if i < n then BitVec.allOnes 8 else 0#8 := by
  refine BitVec.eq_of_getLsbD_eq fun j hj => ?_
  have hword : 8 * i + j < 64 := by omega
  have hkept : 8 * i + j < 8 * n ↔ i < n := by omega
  rw [lane_getLsbD, laneMask_getLsbD]
  split
  next hin => rw [BitVec.getLsbD_allOnes]; simp [hj, hword, hkept, hin]
  next hout => simp [hkept, hout]

theorem lane_topByte (b : Byte) {i : Nat} (h : i < 8) :
    lane (b.setWidth 64 <<< 56) i = if i = 7 then b else 0#8 := by
  refine BitVec.eq_of_getLsbD_eq fun j hj => ?_
  rw [lane_getLsbD, BitVec.getLsbD_shiftLeft, BitVec.getLsbD_setWidth]
  split
  next htop => simp [htop, hj, show 56 + j < 64 by omega, show j < 64 by omega]
  next hbelow => simp [show 8 * i + j < 56 by omega]

theorem lane_pad (d : Word) (n : Nat) (len : BitVec 8) {i : Nat} (h : i < 8) :
    lane (pad d n len) i = (if i < n then lane d i else 0#8) ||| (if i = 7 then len else 0#8) := by
  rw [pad, lane_or, lane_and, lane_laneMask n h, lane_topByte len h]
  congr 1
  split
  · exact BitVec.and_allOnes
  · exact BitVec.and_zero

/-- Settles O36: each clause reads one case of `lane_pad`. -/
theorem padKeepsTailAndLengthByte : Obligations.PadKeepsTailAndLengthByte := by
  intro d n len hn
  refine ⟨rfl, fun i hi => ?_, fun i hni hi => ?_, ?_⟩
  · rw [lane_pad d n len (by omega), if_pos hi, if_neg (by omega), BitVec.or_zero]
  · rw [lane_pad d n len (by omega), if_neg (by omega), if_neg (by omega), BitVec.or_zero]
  · rw [lane_pad d n len (by omega), if_neg (by omega), if_pos rfl, BitVec.zero_or]

/-- With no tail byte the tail word is the length byte alone. -/
theorem pad_no_tail (d : Word) (len : BitVec 8) : pad d 0 len = len.setWidth 64 <<< 56 := by
  simp [pad, laneMask]

theorem sipHash24_nil (key : KeyBuf) :
    sipHash24 key [] = extract (finalize (compress (initState (keyWord0 key) (keyWord1 key)) 0#64)) := by
  simp [sipHash24, absorbBlocks, pad_no_tail]

/-- Settles O37: the empty message has no complete block and no tail byte, and its length byte is 0. -/
theorem emptyMessageIsHashed : Obligations.EmptyMessageIsHashed := sipHash24_nil

end Sys2Proof.Machine

/-! SUPPORT. KEY's store loop as a closed form (R80): what it leaves at each position of KEYBUF, past position 15 included. -/

namespace Sys2Proof.Machine

/-- Position `i` takes its lane when the loop reaches it, and no later byte reaches it again. -/
theorem keyByte_store (kb : KeyBuf) (base : Nat) (data : Word) (n : Nat) {i : Nat} (hi : i < 16) :
    keyByte (storeKeyBytes kb base data n) i =
      if base ≤ i ∧ i < base + n then lane data (i - base) else keyByte kb i := by
  induction n with
  | zero => exact (if_neg (by omega)).symm
  | succ n ih =>
    rw [keyByte_store_succ kb base data n i hi]
    split
    next hlast => rw [if_pos (by omega), ← hlast, Nat.add_sub_cancel_left]
    next hlast =>
      have hrange : base ≤ i ∧ i < base + (n + 1) ↔ base ≤ i ∧ i < base + n := by omega
      simp only [ih, hrange]

/-- The buffer the stores of KEY start from: cleared by S, and KEYBUF as it stands otherwise. -/
theorem keyByte_start (st : Bool) (kb : KeyBuf) {i : Nat} (hi : i < 16) :
    keyByte (if st then KeyBuf.zero else kb) i = if st then 0#8 else keyByte kb i := by
  cases st with
  | false => rfl
  | true => exact keyByte_zero i hi

/-- Settles O11: the closed form of the store loop gives KEYBUF, and the writes of KEY touch no field but KEYBUF and
KLEN. -/
theorem keyStoresBytesAndCounts : Obligations.KeyStoresBytesAndCounts := by
  refine fun st nk d s _ _ he => ⟨fun hp => ?_, execKey_inAbsorb he st nk d⟩
  refine ⟨s.loadKey st nk d, execKey_open he st nk d hp, fun i hi => ?_, ?_, rfl⟩
  · rw [State.loadKey_keybuf, keyByte_store _ _ _ _ hi, keyByte_start st _ hi]
  · rw [State.loadKey_klen, countKeyBytes_toNat]

/-- Settles O12: one clause per outcome of INIT's checks, in their order. -/
theorem initSeedsOrRefuses : Obligations.InitSeedsOrRefuses :=
  fun _ he => ⟨execInit_inAbsorb he, execInit_keyLength he, execInit_open he⟩

end Sys2Proof.Machine

/-! SUPPORT. What an encoded instruction runs: a well-formed one decodes to itself, so its command step is its
meaning. -/

namespace Sys2Proof

/-- Only the counts need the check: encoding keeps three bits of each. -/
theorem decode_encode {i : Instr} (h : i.wellFormed = true) : decode (encode i) = .instr i := by
  cases i with
  | nop => rfl
  | init => rfl
  | clr => rfl
  | block d => simp [encode, decode, cmdWord]
  | key st nk d =>
    simp only [Instr.wellFormed, keyCountOk, Bool.and_eq_true, decide_eq_true_eq] at h
    have hcnt : (BitVec.ofNat 3 (nk - 1)).toNat + 1 = nk := by rw [BitVec.toNat_ofNat]; omega
    rw [encode, decode_key, hcnt]
  | final n d =>
    simp only [Instr.wellFormed, tailCountOk, decide_eq_true_eq] at h
    have hcnt : (BitVec.ofNat 3 n).toNat = n := by rw [BitVec.toNat_ofNat]; omega
    rw [encode, decode_final, hcnt]

namespace Machine

theorem runCommand_encode {i : Instr} (h : i.wellFormed = true) (s : State) : runCommand (encode i) s = exec i s :=
  runCommand_instr (decode_encode h) s

theorem runCommands_encode_cons {i : Instr} {s t : State} (h : i.wellFormed = true) (ht : exec i s = .next t)
    (is : List Instr) : runCommands ((i :: is).map encode) s = runCommands (is.map encode) t :=
  runCommands_cons ((runCommand_encode h s).trans ht) _

end Machine

end Sys2Proof

/-! SUPPORT. BLOCK and FINAL, each in ABSORB and outside it (R90, R91). -/

namespace Sys2Proof.Machine

/-- Settles O13: one clause per side of the PHASE check. -/
theorem blockAbsorbsOneWord : Obligations.BlockAbsorbsOneWord := by
  refine fun d s he => ⟨fun hp => ?_, execBlock_outside he d⟩
  rw [← len8_add s.len8 8]
  exact execBlock_open he d hp

/-- Settles O14: one clause per side of the PHASE check. -/
theorem finalExtractsDigest : Obligations.FinalExtractsDigest := by
  refine fun n d s _ he => ⟨fun hp => ?_, execFinal_outside he n d⟩
  rw [← len8_add s.len8 n]
  exact execFinal_open he n d hp

end Sys2Proof.Machine

/-! SUPPORT. The DATA operands of R56's expansions: a chunk of a byte list, written as an operand, is the chunk's
word. -/

namespace Sys2Proof.Machine

theorem le64_congr {b c : Nat → Byte} (h : ∀ i, i < 8 → b i = c i) : le64 b = le64 c := by
  simp [le64, h]

theorem chunkBytes_length_le (bs : List Byte) (j : Nat) : (chunkBytes bs j).length ≤ 8 := List.length_take_le ..

theorem chunkBytes_getD (bs : List Byte) (j : Nat) {i : Nat} (h : i < 8) :
    (chunkBytes bs j).getD i 0#8 = bs.getD (8 * j + i) 0#8 := by
  simp [chunkBytes, List.getD_eq_getElem?_getD, h]

theorem chunkWord_chunkBytes (bs : List Byte) (j : Nat) : chunkWord (chunkBytes bs j) 0 = chunkWord bs j :=
  le64_congr fun i hi => by rw [Nat.mul_zero, Nat.zero_add, chunkBytes_getD bs j hi]

@[simp] theorem value_chunkBytes (bs : List Byte) (j : Nat) :
    (DataOperand.bytes (chunkBytes bs j)).value = some (chunkWord bs j) := by
  rw [DataOperand.value, if_pos (chunkBytes_length_le bs j), chunkWord_chunkBytes]

@[simp] theorem chunkWord_key_zero (key : KeyBuf) : chunkWord key.toList 0 = keyWord0 key :=
  le64_congr fun i _ => by rw [Nat.mul_zero, Nat.zero_add, keyByte]

@[simp] theorem chunkWord_key_one (key : KeyBuf) : chunkWord key.toList 1 = keyWord1 key := rfl

end Sys2Proof.Machine

/-! SUPPORT. The instructions of HASH's parts (R56), and that its lines assemble to their encodings. -/

namespace Sys2Proof.Machine

theorem assembleAll_cons {l : AsmLine} {ls : List AsmLine} {c : Command} {cs : List Command}
    (h : l.assemble = some c) (hs : assembleAll ls = some cs) : assembleAll (l :: ls) = some (c :: cs) := by
  simp [assembleAll, h, hs]

theorem assembleAll_append {ls ks : List AsmLine} {cs ds : List Command}
    (hl : assembleAll ls = some cs) (hk : assembleAll ks = some ds) : assembleAll (ls ++ ks) = some (cs ++ ds) := by
  induction ls generalizing cs with
  | nil => cases hl; exact hk
  | cons l ls ih =>
    rw [assembleAll] at hl
    split at hl
    next c cs' hc hcs => cases hl; exact assembleAll_cons hc (ih hcs)
    next => cases hl

/-- Lines that assemble one by one assemble as a list. -/
theorem assembleAll_map {α : Type} {f : α → AsmLine} {g : α → Command} (h : ∀ a, (f a).assemble = some (g a))
    (as : List α) : assembleAll (as.map f) = some (as.map g) := by
  induction as with
  | nil => rfl
  | cons a as ih => exact assembleAll_cons (h a) ih

theorem encodeChecked_of_wellFormed {i : Instr} (h : i.wellFormed = true) : encodeChecked i = some (encode i) :=
  if_pos h

/-- LOADKEY (R56). -/
def loadKeyInstrs (key : KeyBuf) : List Instr := [.key true 8 (keyWord0 key), .key false 8 (keyWord1 key)]

/-- The BLOCKs of the first `k` words of the message. -/
def blockInstrs (msg : List Byte) (k : Nat) : List Instr := (List.range k).map fun j => .block (chunkWord msg j)

theorem blockInstrs_succ (msg : List Byte) (k : Nat) :
    blockInstrs msg (k + 1) = blockInstrs msg k ++ [.block (chunkWord msg k)] := by
  simp [blockInstrs, List.range_succ]

/-- ABSORB (R56). -/
def absorbInstrs (msg : List Byte) : List Instr :=
  blockInstrs msg (msg.length / 8) ++ [.final (msg.length % 8) (chunkWord msg (msg.length / 8))]

theorem tail_wellFormed (msg : List Byte) (d : Word) : (Instr.final (msg.length % 8) d).wellFormed = true :=
  decide_eq_true (show msg.length % 8 ≤ 7 by omega)

theorem assembleAll_loadKeyLines (key : KeyBuf) :
    assembleAll (loadKeyLines key) = some ((loadKeyInstrs key).map encode) := by
  refine assembleAll_cons ?_ (assembleAll_cons ?_ rfl)
  · rw [AsmLine.assemble, value_chunkBytes, chunkWord_key_zero]; rfl
  · rw [AsmLine.assemble, value_chunkBytes, chunkWord_key_one]; rfl

theorem assembleAll_absorbLines (msg : List Byte) :
    assembleAll (absorbLines msg) = some ((absorbInstrs msg).map encode) := by
  rw [absorbInstrs, List.map_append, blockInstrs, List.map_map]
  refine assembleAll_append (assembleAll_map (fun j => ?_) _) (assembleAll_cons ?_ rfl)
  · simp [AsmLine.assemble]
  · simp [AsmLine.assemble, encodeChecked_of_wellFormed (tail_wellFormed msg _)]

theorem assembleAll_init_absorb (msg : List Byte) :
    assembleAll (.init :: absorbLines msg) = some ((.init :: absorbInstrs msg).map encode) :=
  assembleAll_cons rfl (assembleAll_absorbLines msg)

theorem assembleAll_hash (key : KeyBuf) (msg : List Byte) :
    assembleAll (Pseudo.hash key msg).expand =
      some ((loadKeyInstrs key).map encode ++ (.init :: absorbInstrs msg).map encode) := by
  rw [Pseudo.expand, List.append_assoc]
  exact assembleAll_append (assembleAll_loadKeyLines key) (assembleAll_init_absorb msg)

end Sys2Proof.Machine

/-! SUPPORT. One invocation (R92): LOADKEY puts the key in KEYBUF, and INIT, the BLOCKs and FINAL take the state through
the stages of SipHash24 (R72). -/

namespace Sys2Proof.Machine

/-- The writes of LOADKEY. -/
def State.loadFullKey (key : KeyBuf) (s : State) : State :=
  (s.loadKey true 8 (keyWord0 key)).loadKey false 8 (keyWord1 key)

/-- The writes of the BLOCKs of the first `k` words of the message. -/
def State.absorbChunks (msg : List Byte) (s : State) : Nat → State
  | 0 => s
  | k + 1 => (s.absorbChunks msg k).absorbWord (chunkWord msg k)

/-- The writes of INIT and ABSORB. -/
def State.hashMessage (msg : List Byte) (s : State) : State :=
  (s.openInvocation.absorbChunks msg (msg.length / 8)).closeInvocation (msg.length % 8)
    (chunkWord msg (msg.length / 8))

section

variable (s : State) (key : KeyBuf)

@[simp] theorem State.loadFullKey_phase : (s.loadFullKey key).phase = s.phase := by simp [loadFullKey]
@[simp] theorem State.loadFullKey_err : (s.loadFullKey key).err = s.err := by simp [loadFullKey]
@[simp] theorem State.loadFullKey_klen : (s.loadFullKey key).klen = 16#5 := by
  simp [loadFullKey, countKeyBytes, Config.klenMax]

/-- The first KEY fills positions 0 to 7, the second 8 to 15. -/
@[simp] theorem State.loadFullKey_keybuf : (s.loadFullKey key).keybuf = key := by
  refine keyBuf_ext fun i hi => ?_
  have hbase : (countKeyBytes 0 8).toNat = 8 := rfl
  simp only [loadFullKey, loadKey_keybuf, loadKey_klen, keyByte_store _ _ _ _ hi, if_true, Bool.false_eq_true, if_false,
    hbase]
  rcases Nat.lt_or_ge i 8 with hlow | hhigh
  · rw [if_neg (by omega), if_pos (by omega), keyWord0, lane_le64 _ (by omega), Nat.sub_zero]
  · rw [if_pos (by omega), keyWord1, lane_le64 _ (by omega), Nat.add_sub_cancel' hhigh]

end

section

variable (msg : List Byte) (s : State) (k : Nat)

@[simp] theorem State.absorbChunks_v : (s.absorbChunks msg k).v = absorbBlocks msg s.v k := by
  induction k with
  | zero => rfl
  | succ k ih => rw [absorbChunks, absorbWord_v, ih, absorbBlocks_succ]

@[simp] theorem State.absorbChunks_len8 : (s.absorbChunks msg k).len8 = s.len8 + BitVec.ofNat 8 (8 * k) := by
  induction k with
  | zero => exact (BitVec.add_zero _).symm
  | succ k ih => rw [absorbChunks, absorbWord_len8, ih, BitVec.add_assoc, ← BitVec.ofNat_add, Nat.mul_succ]

/-- BLOCK keeps the key, PHASE and ERR. -/
@[simp] theorem State.absorbChunks_frame :
    (s.absorbChunks msg k).keybuf = s.keybuf ∧ (s.absorbChunks msg k).klen = s.klen ∧
      (s.absorbChunks msg k).phase = s.phase ∧ (s.absorbChunks msg k).err = s.err := by
  induction k with
  | zero => exact ⟨rfl, rfl, rfl, rfl⟩
  | succ k ih => exact ih

end

section

variable {s : State} (he : s.err = .none)

include he

theorem runCommands_loadKeyInstrs (key : KeyBuf) (hp : s.phase ≠ .absorb) :
    runCommands ((loadKeyInstrs key).map encode) s = .next (s.loadFullKey key) := by
  have hsecond := execKey_open (s := s.loadKey true 8 (keyWord0 key)) he false 8 (keyWord1 key) hp
  rw [loadKeyInstrs, runCommands_encode_cons (i := .key true 8 _) rfl (execKey_open he true 8 _ hp)]
  exact runCommands_encode_cons (i := .key false 8 _) rfl hsecond []

theorem runCommands_blockInstrs (msg : List Byte) (k : Nat) (hp : s.phase = .absorb) :
    runCommands ((blockInstrs msg k).map encode) s = .next (s.absorbChunks msg k) := by
  induction k with
  | zero => rfl
  | succ k ih =>
    have hlast := execBlock_open (s := s.absorbChunks msg k) (by simpa using he) (chunkWord msg k) (by simpa using hp)
    rw [blockInstrs_succ, List.map_append, runCommands_append _ _ ih]
    exact runCommands_encode_cons (i := .block _) rfl hlast []

theorem runCommands_init_absorbInstrs (msg : List Byte) (hp : s.phase ≠ .absorb) (hk : s.klen = 16#5) :
    runCommands ((.init :: absorbInstrs msg).map encode) s = .next (s.hashMessage msg) := by
  have hblocks := runCommands_blockInstrs (s := s.openInvocation) he msg (msg.length / 8) rfl
  have hfinal := execFinal_open (s := s.openInvocation.absorbChunks msg (msg.length / 8)) (by simpa using he)
    (msg.length % 8) (chunkWord msg (msg.length / 8)) (by simp)
  rw [runCommands_encode_cons (i := .init) rfl (execInit_open he hp hk), absorbInstrs, List.map_append,
    runCommands_append _ _ hblocks]
  exact runCommands_encode_cons (i := .final ..) (tail_wellFormed msg _) hfinal []

end

/-- LEN8 after the whole message (R22). -/
theorem State.hashMessage_len8 (msg : List Byte) (s : State) :
    (s.hashMessage msg).len8 = BitVec.ofNat 8 msg.length := by
  simp [hashMessage, finalLength, ← BitVec.ofNat_add, Nat.div_add_mod]

/-- The stages of R72 are the commands of R92. -/
theorem State.hashMessage_digest (msg : List Byte) (s : State) :
    (s.hashMessage msg).digest = sipHash24 s.keybuf msg := by
  have hlen : finalLength (msg.length % 8) (s.openInvocation.absorbChunks msg (msg.length / 8)) =
      BitVec.ofNat 8 msg.length := s.hashMessage_len8 msg
  simp [hashMessage, finalDigest, hlen, sipHash24]

/-- What R92 says of the state after HASH. -/
abbrev State.Hashed (key : KeyBuf) (msg : List Byte) (t : State) : Prop :=
  t.digest = sipHash24 key msg ∧ t.phase = .finished ∧ t.err = .none ∧ t.klen = 16#5 ∧
    t.len8.toNat = msg.length % 256 ∧ t.v = ⟨0#64, 0#64, 0#64, 0#64⟩ ∧ t.m = 0#64 ∧ t.keybuf = key

theorem State.hashMessage_hashed {s : State} (msg : List Byte) (he : s.err = .none) (hk : s.klen = 16#5) :
    (s.hashMessage msg).Hashed s.keybuf msg := by
  refine ⟨s.hashMessage_digest msg, rfl, ?_, ?_, ?_, rfl, rfl, ?_⟩
  · simpa [hashMessage] using he
  · simpa [hashMessage] using hk
  · rw [hashMessage_len8, BitVec.toNat_ofNat]
  · simp [hashMessage]

/-- Settles O40: the lines assemble to encoded instructions, and these run stage by stage; the BLOCKs by induction on
their number. -/
theorem hashSequenceComputesSipHash24 : Obligations.HashSequenceComputesSipHash24 := by
  refine fun key msg s _ he hp => ⟨?_, fun hkey hk => ?_⟩
  · have hek : (s.loadFullKey key).err = .none := (s.loadFullKey_err key).trans he
    have hpk : (s.loadFullKey key).phase ≠ .absorb := by rwa [State.loadFullKey_phase]
    have hkk := s.loadFullKey_klen key
    have hdone := State.hashMessage_hashed msg hek hkk
    rw [State.loadFullKey_keybuf] at hdone
    refine ⟨_, _, assembleAll_hash key msg, ?_, hdone⟩
    rw [runCommands_append _ _ (runCommands_loadKeyInstrs he key hp)]
    exact runCommands_init_absorbInstrs hek msg hpk hkk
  · exact ⟨_, _, assembleAll_init_absorb msg, runCommands_init_absorbInstrs he msg hp hk,
      hkey ▸ State.hashMessage_hashed msg he hk⟩

end Sys2Proof.Machine

/-! SUPPORT. Two runs of the same commands: the registers a command leaves are fixed by those it finds, whatever the
command channel, the host's program and the fault mark hold. -/

namespace Sys2Proof.Machine

/-- The state with its registers alone: nothing in flight, no command waiting, the fault mark clear. -/
def State.registers (s : State) : State := { s.retire.withProgram [] with faulted := false }

/-- Every check reads a register, so the same effect comes from the registers alone. -/
theorem Effect.exec_registers {s t : State} {i : Instr} (h : Effect s i t) :
    ∃ u, exec i s.registers = .next u ∧ u.registers = t.registers := by
  cases h with
  | gated i h hi => exact ⟨_, exec_gated (s := s.registers) h hi, rfl⟩
  | nop h => exact ⟨_, gated_open (s := s.registers) h _, rfl⟩
  | keyInAbsorb st nk d h hp => exact ⟨_, execKey_inAbsorb (s := s.registers) h st nk d hp, rfl⟩
  | key st nk d h hp => exact ⟨_, execKey_open (s := s.registers) h st nk d hp, rfl⟩
  | initInAbsorb h hp => exact ⟨_, execInit_inAbsorb (s := s.registers) h hp, rfl⟩
  | initKeyLength h hp hk =>
    have hne : s.klen ≠ 16#5 := fun h16 => hk (congrArg BitVec.toNat h16)
    exact ⟨_, execInit_keyLength (s := s.registers) h hp hne, rfl⟩
  | init h hp hk => exact ⟨_, execInit_open (s := s.registers) h hp (BitVec.eq_of_toNat_eq hk), rfl⟩
  | blockOutside d h hp => exact ⟨_, execBlock_outside (s := s.registers) h d hp, rfl⟩
  | block d h hp => exact ⟨_, execBlock_open (s := s.registers) h d hp, rfl⟩
  | finalOutside n d h hp => exact ⟨_, execFinal_outside (s := s.registers) h n d hp, rfl⟩
  | final n d h hp => exact ⟨_, execFinal_open (s := s.registers) h n d hp, rfl⟩
  | clr => exact ⟨_, rfl, rfl⟩

theorem runCommand_registers {c : Command} {s t : State} (h : runCommand c s = .next t) :
    ∃ u, runCommand c s.registers = .next u ∧ u.registers = t.registers := by
  rcases runCommand_next h with ⟨i, hd, he⟩ | ⟨why, hd, ⟨he, rfl⟩ | ⟨he, rfl⟩⟩
  · rw [runCommand_instr hd]
    exact he.exec_registers
  · exact ⟨_, runCommand_illegal_open (s := s.registers) hd he, rfl⟩
  · exact ⟨_, (runCommand_illegal hd _).trans (gated_shut (s := t.registers) he _), rfl⟩

theorem runCommand_registers_eq {c : Command} {s t s' t' : State} (hs : runCommand c s = .next s')
    (ht : runCommand c t = .next t') (h : s.registers = t.registers) : s'.registers = t'.registers := by
  obtain ⟨u, hu, hus⟩ := runCommand_registers hs
  obtain ⟨w, hw, hwt⟩ := runCommand_registers ht
  rw [h, hw] at hu
  cases hu
  exact hus.symm.trans hwt

/-- A run from a command on goes through the state that command gives. -/
theorem runCommands_cons_next {c : Command} {cs : List Command} {s t : State} (h : runCommands (c :: cs) s = .next t) :
    ∃ u, runCommand c s = .next u ∧ runCommands cs u = .next t := by
  rw [runCommands] at h
  split at h
  next u hu => exact ⟨u, hu, h⟩
  next => cases h
  next => cases h

theorem runCommands_registers_eq (cs : List Command) {s t s' t' : State} (hs : runCommands cs s = .next s')
    (ht : runCommands cs t = .next t') (h : s.registers = t.registers) : s'.registers = t'.registers := by
  induction cs generalizing s t with
  | nil => cases hs; cases ht; exact h
  | cons c cs ih =>
    obtain ⟨u, hu, hus⟩ := runCommands_cons_next hs
    obtain ⟨w, hw, hwt⟩ := runCommands_cons_next ht
    exact ih hus hwt (runCommand_registers_eq hu hw h)

theorem runCommand_init_open {s : State} (d : Word) (he : s.err = .none) (hp : s.phase ≠ .absorb)
    (hk : s.klen = 16#5) : runCommand ⟨0x00000002#32, d⟩ s = .next s.openInvocation :=
  (runCommand_instr (i := .init) (by simp [decode]) s).trans (execInit_open he hp hk)

/-- INIT writes every register but KEYBUF, KLEN and ERR. -/
theorem openInvocation_registers_eq {s t : State} (hb : s.keybuf = t.keybuf) (hk : s.klen = t.klen)
    (he : s.err = t.err) : s.openInvocation.registers = t.openInvocation.registers := by
  simp [State.registers, State.openInvocation, State.retire, State.withProgram, hb, hk, he]

/-- Settles O41: INIT leaves the same registers in both states, and the commands after it keep them the same. -/
theorem invocationsLeaveOnlyTheKey : Obligations.InvocationsLeaveOnlyTheKey := by
  intro d cs s t s' t' hse hte hsp htp hsk htk hb hs ht
  rw [runCommands_cons (runCommand_init_open d hse hsp hsk)] at hs
  rw [runCommands_cons (runCommand_init_open d hte htp htk)] at ht
  have hopen := openInvocation_registers_eq hb (hsk.trans htk.symm) (hse.trans hte.symm)
  have hend := runCommands_registers_eq cs hs ht hopen
  exact ⟨congrArg (·.v) hend, congrArg (·.m) hend, congrArg (·.keybuf) hend, congrArg (·.klen) hend,
    congrArg (·.len8) hend, congrArg (·.phase) hend, congrArg (·.err) hend, congrArg (·.digest) hend⟩

end Sys2Proof.Machine

/-! SUPPORT. NOP and CLR answer in every state, whatever ERR holds (R101, R102). -/

namespace Sys2Proof.Machine

/-- On the open side of the gate NOP writes nothing; on the shut side no command but CLR does. -/
@[simp] theorem exec_nop (s : State) : exec .nop s = .next s := by
  by_cases he : s.err = .none
  · exact gated_open he _
  · exact exec_gated he (by decide)

@[simp] theorem exec_clr (s : State) : exec .clr s = .next s.recover := rfl

theorem runCommand_nop {c : Command} (h : c.cmd = 0x00000000#32) (s : State) : runCommand c s = .next s :=
  (runCommand_instr ((decode_nop_iff c).mpr h) s).trans (exec_nop s)

theorem start_outside_key_illegal {w : Word32} (hs : fieldS w = true) (hop : fieldOp w ≠ 1#4) (d : Word) :
    ∃ why, decode ⟨w, d⟩ = .illegal why :=
  (decode_illegal_iff _).mpr (.inr (.inr (.inl ⟨hs, hop⟩)))

theorem count_outside_key_and_final_illegal {w : Word32} (hn : fieldCnt w ≠ 0#3) (hkey : fieldOp w ≠ 1#4)
    (hfinal : fieldOp w ≠ 4#4) (d : Word) : ∃ why, decode ⟨w, d⟩ = .illegal why :=
  (decode_illegal_iff _).mpr (.inr (.inr (.inr ⟨hn, hkey, hfinal⟩)))

/-- Settles O10: the two sides of the gate for the effect; OP = 0 with S set, and with CNT not 0, for the two illegal
words. -/
theorem nopChangesNothing : Obligations.NopChangesNothing := by
  refine ⟨exec_nop, fun _ => runCommand_nop rfl, fun d => ⟨?_, ?_⟩⟩
  · exact start_outside_key_illegal (by decide) (by decide) d
  · exact count_outside_key_and_final_illegal (by decide) (by decide) (by decide) d

/-- Settles O15: CLR is not gated, and its writes are those of `State.recover`. -/
theorem clrRecoversAndKeepsKey : Obligations.ClrRecoversAndKeepsKey := exec_clr

end Sys2Proof.Machine

/-! SUPPORT. The error gate over the command step (R113, R116): under it a command other than CLR is the identity, CLR
recovers, and on either side of it a command completes. -/

namespace Sys2Proof

theorem decode_clr_iff (c : Command) : decode c = .instr .clr ↔ c.cmd = 0x00000005#32 := by
  constructor
  · intro h
    rcases decode_instr h with ⟨-, hi⟩ | ⟨s, n, -, hi⟩ | ⟨-, hi⟩ | ⟨-, hi⟩ | ⟨n, -, hi⟩ | ⟨hw, -⟩
    case inr.inr.inr.inr.inr => exact hw
    all_goals cases hi
  · intro hw
    simp [decode, hw]

namespace Machine

theorem gated_completes {s : State} {body : Result} (h : ∃ t, body = .next t) : ∃ t, gated s body = .next t := by
  by_cases he : s.err = .none
  · rwa [gated_open he]
  · exact ⟨s, gated_shut he body⟩

theorem exec_completes (i : Instr) (s : State) : ∃ t, exec i s = .next t := by
  cases i with
  | nop => exact ⟨_, exec_nop s⟩
  | clr => exact ⟨_, exec_clr s⟩
  | key st nk d => exact gated_completes (by split <;> exact ⟨_, rfl⟩)
  | init =>
    refine gated_completes ?_
    split
    · exact ⟨_, rfl⟩
    · split <;> exact ⟨_, rfl⟩
  | block d => exact gated_completes (by split <;> exact ⟨_, rfl⟩)
  | final n d => exact gated_completes (by split <;> exact ⟨_, rfl⟩)

theorem runCommand_completes (c : Command) (s : State) : ∃ t, runCommand c s = .next t := by
  cases hd : decode c with
  | instr i => exact runCommand_instr hd s ▸ exec_completes i s
  | illegal why => exact runCommand_illegal hd s ▸ gated_completes ⟨_, rfl⟩

theorem runCommand_clr {c : Command} (hd : decode c = .instr .clr) (s : State) : runCommand c s = .next s.recover :=
  (runCommand_instr hd s).trans (exec_clr s)

section

variable {s : State} (he : s.err ≠ .none)

include he

theorem runCommand_gated {c : Command} (hc : decode c ≠ .instr .clr) : runCommand c s = .next s := by
  cases hd : decode c with
  | instr i => exact (runCommand_instr hd s).trans (exec_gated he fun hi => hc (hi ▸ hd))
  | illegal why => exact (runCommand_illegal hd s).trans (gated_shut he _)

theorem runCommands_gated (cs : List Command) (hcs : ∀ c ∈ cs, decode c ≠ .instr .clr) :
    runCommands cs s = .next s := by
  induction cs with
  | nil => rfl
  | cons c cs ih =>
    obtain ⟨hc, hrest⟩ := List.forall_mem_cons.mp hcs
    rw [runCommands_cons (runCommand_gated he hc), ih hrest]

end

/-- Settles O18: a list free of CMD = 5 holds no CLR, so it is the identity under the gate. -/
theorem gateIgnoresAllButClr : Obligations.GateIgnoresAllButClr := by
  refine ⟨fun cs s he hcs => ?_, fun d s _ => ?_⟩
  · exact runCommands_gated he cs fun c hc hd => hcs c hc ((decode_clr_iff c).mp hd)
  · exact runCommand_instr ((decode_clr_iff _).mpr rfl) s

/-- Settles O19: the identity and the recovery under the gate; reset from the registers it writes. -/
theorem onlyClrOrResetRecovers : Obligations.OnlyClrOrResetRecovers := by
  refine ⟨fun c s t he h => ⟨fun hc => ?_, fun hc => ?_⟩, fun s => ⟨rfl, rfl, rfl, fun i hi => keyByte_zero i hi⟩⟩
  · rw [runCommand_gated he hc] at h
    cases h
    rfl
  · rw [runCommand_clr hc] at h
    cases h
    exact ⟨rfl, rfl, rfl, rfl⟩

end Machine

end Sys2Proof

/-! SUPPORT. The errors a command raises under the open gate: which, when, and that nothing else is written (R110, R111,
R114, R115). -/

namespace Sys2Proof.Machine

section

variable {s t : State} {i : Instr} (h : Effect s i t) (he : s.err = .none)

include h he

theorem Effect.err_ne_illegalCmd : t.err ≠ .illegalCmd := by
  cases h with
  | gated _ hs => exact absurd he hs
  | nop | key | init | block | final => simp [he]
  | keyInAbsorb | initInAbsorb | initKeyLength | blockOutside | finalOutside | clr => simp

/-- PHASE is checked before KLEN, so INIT in ABSORB is a case of SEQUENCE whatever KLEN holds (R114). -/
theorem Effect.err_sequence_iff : t.err = .sequence ↔
    (((∃ st nk d, i = .key st nk d) ∨ i = .init) ∧ s.phase = .absorb) ∨
    (((∃ d, i = .block d) ∨ ∃ n d, i = .final n d) ∧ s.phase ≠ .absorb) := by
  cases h with
  | gated _ hs => exact absurd he hs
  | nop | clr => simp [he]
  | keyInAbsorb _ _ _ _ hp | initInAbsorb _ hp | initKeyLength _ hp | blockOutside _ _ hp | finalOutside _ _ _ hp =>
    simp [hp]
  | key _ _ _ _ hp | init _ hp | block _ _ hp | final _ _ _ hp => simp [he, hp]

theorem Effect.err_keyLength_iff : t.err = .keyLength ↔ i = .init ∧ s.phase ≠ .absorb ∧ s.klen ≠ 16#5 := by
  cases h with
  | gated _ hs => exact absurd he hs
  | initInAbsorb _ hp => simp [hp]
  | initKeyLength _ hp hk =>
    have hne : s.klen ≠ 16#5 := fun h16 => hk (congrArg BitVec.toNat h16)
    simp [hp, hne]
  | init _ _ hk => simp [he, BitVec.eq_of_toNat_eq (y := 16#5) hk]
  | nop | key | block | final => simp [he]
  | keyInAbsorb | blockOutside | finalOutside | clr => simp

/-- A body that writes registers leaves ERR at NONE, so a raised error is the only write (R111). -/
theorem Effect.eq_withError (ht : t.err ≠ .none) : t = s.withError t.err := by
  cases h with
  | gated | nop | key | init | block | final => exact absurd he ht
  | clr => exact absurd rfl ht
  | keyInAbsorb | initInAbsorb | initKeyLength | blockOutside | finalOutside => rfl

end

section

variable {s t : State} {c : Command} (h : runCommand c s = .next t) (he : s.err = .none)

include h he

theorem runCommand_err_illegalCmd_iff : t.err = .illegalCmd ↔ ∃ why, decode c = .illegal why := by
  cases hd : decode c with
  | instr i => simp [(runCommand_effect h hd).err_ne_illegalCmd he]
  | illegal why =>
    cases (runCommand_illegal_open hd he).symm.trans h
    simp

theorem runCommand_err_sequence_iff : t.err = .sequence ↔
    (((∃ st nk d, decode c = .instr (.key st nk d)) ∨ decode c = .instr .init) ∧ s.phase = .absorb) ∨
    (((∃ d, decode c = .instr (.block d)) ∨ ∃ n d, decode c = .instr (.final n d)) ∧ s.phase ≠ .absorb) := by
  cases hd : decode c with
  | instr i => simpa using (runCommand_effect h hd).err_sequence_iff he
  | illegal why =>
    cases (runCommand_illegal_open hd he).symm.trans h
    simp

theorem runCommand_err_keyLength_iff :
    t.err = .keyLength ↔ decode c = .instr .init ∧ s.phase ≠ .absorb ∧ s.klen ≠ 16#5 := by
  cases hd : decode c with
  | instr i => simpa using (runCommand_effect h hd).err_keyLength_iff he
  | illegal why =>
    cases (runCommand_illegal_open hd he).symm.trans h
    simp

theorem runCommand_eq_withError (ht : t.err ≠ .none) : t = s.withError t.err := by
  cases hd : decode c with
  | instr i => exact (runCommand_effect h hd).eq_withError he ht
  | illegal why =>
    cases (runCommand_illegal_open hd he).symm.trans h
    rfl

end

/-- Settles O16: the command completes; with the gate open each code has its cases, and with it shut ERR stays or CLR
clears it. -/
theorem errorsRaisedExactlyWhen : Obligations.ErrorsRaisedExactlyWhen := by
  refine ⟨⟨rfl, rfl, rfl, rfl⟩, fun c s he => ?_, fun c s he => ?_⟩
  · obtain ⟨t, h⟩ := runCommand_completes c s
    exact ⟨t, h, runCommand_err_illegalCmd_iff h he, runCommand_err_sequence_iff h he,
      runCommand_err_keyLength_iff h he⟩
  · by_cases hc : decode c = .instr .clr
    · exact ⟨_, runCommand_clr hc s, .inr rfl⟩
    · exact ⟨_, runCommand_gated he hc, .inl rfl⟩

theorem fetch_some_not_busy {s u : State} {c : Command} (h : fetch s = some (c, u)) : u.busy = false := by
  unfold fetch at h
  split at h
  next => cases h; rfl
  next hb =>
    split at h
    · cases h
    · cases h; exact Bool.eq_false_iff.mpr hb

theorem fetch_none_not_busy {s : State} (h : fetch s = none) : s.busy = false := by
  by_contra hb
  rw [fetch_busy (by simpa using hb)] at h
  cases h

/-- Nothing is in flight after a step: `fetch` gives a state with BUSY = 0, and no command sets BUSY (R111). -/
theorem step_not_busy {s t : State} (h : step s = .next t) : t.busy = false := by
  unfold step completeNext at h
  split at h
  next hf => cases h; exact fetch_none_not_busy hf
  next c u hf => exact (runCommand_channel h).1.trans (fetch_some_not_busy hf)

/-- Settles O17: the writes of an error for the command, `fetch` for BUSY. -/
theorem errorsArePrecise : Obligations.ErrorsArePrecise :=
  ⟨fun _ _ _ => runCommand_eq_withError, fun _ _ => step_not_busy⟩

end Sys2Proof.Machine

/-! SUPPORT. KEY past the end of KEYBUF (R139): its bytes are dropped and KLEN goes beyond 16. -/

namespace Sys2Proof.Machine

/-- Positions 16 and up do not exist, so no byte is kept (R80). -/
theorem storeKeyBytes_past_end {base : Nat} (h : 16 ≤ base) (kb : KeyBuf) (data : Word) (n : Nat) :
    storeKeyBytes kb base data n = kb :=
  keyBuf_ext fun i hi => (keyByte_store kb base data n hi).trans (if_neg (by omega))

section

variable {s : State} (hk : s.klen = 16#5)

include hk

theorem loadKey_append_full_keybuf (nk : Nat) (d : Word) : (s.loadKey false nk d).keybuf = s.keybuf := by
  have hbase : 16 ≤ s.klen.toNat := by simp [hk]
  exact storeKeyBytes_past_end hbase s.keybuf d nk

theorem loadKey_append_full_klen {nk : Nat} (hnk : 1 ≤ nk) (d : Word) :
    17 ≤ (s.loadKey false nk d).klen.toNat := by
  have hlen : (s.loadKey false nk d).klen.toNat = min (16 + nk) 31 := by simp [hk, countKeyBytes_toNat]
  omega

end

/-- Settles O43: a KEY appended to a full KEYBUF changes KLEN alone, to a length that fails INIT's check. -/
theorem newKeyNeedsStart : Obligations.NewKeyNeedsStart := by
  intro st nk d s hnk _ he
  refine ⟨fun hp hk => ?_, fun hp => ⟨_, execKey_inAbsorb he st nk d hp, rfl⟩⟩
  have hlen := loadKey_append_full_klen hk hnk d
  have hne : (s.loadKey false nk d).klen ≠ 16#5 := fun h16 => absurd (h16 ▸ hlen) (by decide)
  have hinit := execInit_keyLength (s := s.loadKey false nk d) he hp hne
  exact ⟨_, _, execKey_open he false nk d hp, hlen, loadKey_append_full_keybuf hk nk d, hinit, rfl⟩

end Sys2Proof.Machine

/-! SUPPORT. The effects of an instruction are what it answers, and how two updates of the state that no check reads pass
through them: the host's program (R144), and V0..V3 and M while PHASE is not ABSORB (R132). -/

namespace Sys2Proof.Machine

/-- The converse of `exec_effect`. -/
theorem Effect.exec_eq {s t : State} {i : Instr} (h : Effect s i t) : exec i s = .next t := by
  cases h with
  | gated i h hi => exact exec_gated h hi
  | nop => exact exec_nop s
  | keyInAbsorb st nk d h hp => exact execKey_inAbsorb h st nk d hp
  | key st nk d h hp => exact execKey_open h st nk d hp
  | initInAbsorb h hp => exact execInit_inAbsorb h hp
  | initKeyLength h hp hk => exact execInit_keyLength h hp fun h16 => hk (congrArg BitVec.toNat h16)
  | init h hp hk => exact execInit_open h hp (BitVec.eq_of_toNat_eq hk)
  | blockOutside d h hp => exact execBlock_outside h d hp
  | block d h hp => exact execBlock_open h d hp
  | finalOutside n d h hp => exact execFinal_outside h n d hp
  | final n d h hp => exact execFinal_open h n d hp
  | clr => rfl

/-- No instruction reads or writes the host's program. -/
theorem Effect.withProgram {s t : State} {i : Instr} (h : Effect s i t) (p : List Command) :
    Effect (s.withProgram p) i (t.withProgram p) := by
  cases h with
  | gated i h hi => exact .gated i h hi
  | nop h => exact .nop h
  | keyInAbsorb st nk d h hp => exact .keyInAbsorb (s := s.withProgram p) st nk d h hp
  | key st nk d h hp => exact .key (s := s.withProgram p) st nk d h hp
  | initInAbsorb h hp => exact .initInAbsorb (s := s.withProgram p) h hp
  | initKeyLength h hp hk => exact .initKeyLength (s := s.withProgram p) h hp hk
  | init h hp hk => exact .init (s := s.withProgram p) h hp hk
  | blockOutside d h hp => exact .blockOutside (s := s.withProgram p) d h hp
  | block d h hp => exact .block (s := s.withProgram p) d h hp
  | finalOutside n d h hp => exact .finalOutside (s := s.withProgram p) n d h hp
  | final n d h hp => exact .final (s := s.withProgram p) n d h hp
  | clr => exact .clr (s := s.withProgram p)

/-- The state with V0..V3 and M replaced. -/
def State.withScratch (v : Perm) (m : Word) (s : State) : State := { s with v := v, m := m }

/-- Outside ABSORB no instruction reads V0..V3 or M: the replacement is still there after it and PHASE is still not
ABSORB, or it is overwritten, by INIT or CLR. -/
theorem Effect.withScratch {s t : State} {i : Instr} (h : Effect s i t) (hp : s.phase ≠ .absorb) (v : Perm) (m : Word) :
    Effect (s.withScratch v m) i t ∨ (t.phase ≠ .absorb ∧ Effect (s.withScratch v m) i (t.withScratch v m)) := by
  cases h with
  | keyInAbsorb _ _ _ _ ha | initInAbsorb _ ha | block _ _ ha | final _ _ _ ha => exact absurd ha hp
  | init h hp hk => exact .inl (.init (s := s.withScratch v m) h hp hk)
  | clr => exact .inl (.clr (s := s.withScratch v m))
  | gated i h hi => exact .inr ⟨hp, .gated i h hi⟩
  | nop h => exact .inr ⟨hp, .nop h⟩
  | key st nk d h => exact .inr ⟨hp, .key (s := s.withScratch v m) st nk d h hp⟩
  | initKeyLength h _ hk => exact .inr ⟨hp, .initKeyLength (s := s.withScratch v m) h hp hk⟩
  | blockOutside d h => exact .inr ⟨hp, .blockOutside (s := s.withScratch v m) d h hp⟩
  | finalOutside n d h => exact .inr ⟨hp, .finalOutside (s := s.withScratch v m) n d h hp⟩

end Sys2Proof.Machine

/-! SUPPORT. V0..V3 and M outside ABSORB, over the commands of a run (R132). -/

namespace Sys2Proof.Machine

section

variable {s t : State} (hp : s.phase ≠ .absorb)

include hp

theorem runCommand_withScratch {c : Command} (h : runCommand c s = .next t) (v : Perm) (m : Word) :
    runCommand c (s.withScratch v m) = .next t ∨
    (t.phase ≠ .absorb ∧ runCommand c (s.withScratch v m) = .next (t.withScratch v m)) := by
  rcases runCommand_next h with ⟨i, hd, he⟩ | ⟨why, hd, ⟨he, rfl⟩ | ⟨he, rfl⟩⟩
  · rw [runCommand_instr hd]
    exact (he.withScratch hp v m).imp Effect.exec_eq (And.imp_right Effect.exec_eq)
  · exact .inr ⟨hp, runCommand_illegal_open (s := s.withScratch v m) hd he⟩
  · exact .inr ⟨hp, (runCommand_illegal hd _).trans (gated_shut (s := t.withScratch v m) he _)⟩

theorem runCommands_withScratch (cs : List Command) (h : runCommands cs s = .next t) (v : Perm) (m : Word) :
    runCommands cs (s.withScratch v m) = .next t ∨ runCommands cs (s.withScratch v m) = .next (t.withScratch v m) := by
  induction cs generalizing s with
  | nil => cases h; exact .inr rfl
  | cons c cs ih =>
    obtain ⟨u, hu, hrest⟩ := runCommands_cons_next h
    rcases runCommand_withScratch hp hu v m with hsame | ⟨hup, hreplaced⟩
    · exact .inl ((runCommands_cons hsame cs).trans hrest)
    · rw [runCommands_cons hreplaced]
      exact ih hup hrest

end

/-- No output port shows V0..V3 or M (R30). -/
@[simp] theorem outputs_withScratch (v : Perm) (m : Word) (s : State) : outputs (s.withScratch v m) = outputs s := rfl

/-- Settles O46: the replaced run ends in the same state, or in one that differs in V0..V3 and M alone. -/
theorem resetPermutationStateIsNeverSeen : Obligations.ResetPermutationStateIsNeverSeen := by
  intro cs s s' t' v m hp hs ht
  rcases runCommands_withScratch hp cs hs v m with hsame | hreplaced
  · cases hsame.symm.trans ht
    rfl
  · cases hreplaced.symm.trans ht
    exact (outputs_withScratch v m s').symm

end Sys2Proof.Machine

/-! SUPPORT. Steps of the machine against command steps (R144): a step takes the command presented, whose effect does not
depend on the commands behind it. -/

namespace Sys2Proof.Machine

theorem runCommand_withProgram {c : Command} {s t : State} (h : runCommand c s = .next t) (p : List Command) :
    runCommand c (s.withProgram p) = .next (t.withProgram p) := by
  rcases runCommand_next h with ⟨i, hd, he⟩ | ⟨why, hd, ⟨he, rfl⟩ | ⟨he, rfl⟩⟩
  · exact (runCommand_instr hd _).trans (he.withProgram p).exec_eq
  · exact runCommand_illegal_open (s := s.withProgram p) hd he
  · exact (runCommand_illegal hd _).trans (gated_shut (s := t.withProgram p) he _)

theorem runCommands_completes (cs : List Command) (s : State) : ∃ t, runCommands cs s = .next t := by
  induction cs generalizing s with
  | nil => exact ⟨s, rfl⟩
  | cons c cs ih =>
    obtain ⟨u, hu⟩ := runCommand_completes c s
    rw [runCommands_cons hu]
    exact ih u

theorem runCommands_channel (cs : List Command) {s t : State} (h : runCommands cs s = .next t) :
    t.busy = s.busy ∧ t.program = s.program := by
  induction cs generalizing s with
  | nil => cases h; exact ⟨rfl, rfl⟩
  | cons c cs ih =>
    obtain ⟨u, hu, hrest⟩ := runCommands_cons_next h
    obtain ⟨hbusy, -, -, hprogram⟩ := runCommand_channel hu
    exact ⟨(ih hrest).1.trans hbusy, (ih hrest).2.trans hprogram⟩

section

variable {s : State} (hb : s.busy = false)

include hb

theorem step_waiting (hp : s.program = []) : step s = .next s := by
  simp [step, completeNext, fetch_waiting hb hp]

theorem step_presented {c : Command} {rest : List Command} (hp : s.program = c :: rest) :
    step s = runCommand c (s.withProgram rest) := by
  simp [step, completeNext, fetch_presented hb hp]

end

theorem core_run_succ {s t : State} (h : step s = .next t) (k : Nat) :
    Host.Core.run core (k + 1) s = Host.Core.run core k t := by
  have hstep : core.step s = .next t := h
  simp [Host.Core.run, hstep]

theorem core_run_program (cs : List Command) {s : State} (hb : s.busy = false) (hp : s.program = cs) :
    Host.Core.run core cs.length s = runCommands cs (s.withProgram []) := by
  induction cs generalizing s with
  | nil =>
    have hs : s.withProgram [] = s := by rw [← hp, State.withProgram_self]
    rw [hs]
    rfl
  | cons c cs ih =>
    obtain ⟨u, hu⟩ := runCommand_completes c (s.withProgram cs)
    obtain ⟨hbusy, -, -, hprogram⟩ := runCommand_channel hu
    have hempty : runCommand c (s.withProgram []) = .next (u.withProgram []) := runCommand_withProgram hu []
    rw [List.length_cons, core_run_succ ((step_presented hb hp).trans hu), ih (hbusy.trans hb) hprogram,
      runCommands_cons hempty]

/-- Settles O51: the steps are the command steps, all of which complete, and at the end no command is left to fetch. -/
theorem runEndsWithProgramDone : Obligations.RunEndsWithProgramDone := by
  intro s hb
  obtain ⟨t, ht⟩ := runCommands_completes s.program (s.withProgram [])
  obtain ⟨hbusy, hprogram⟩ := runCommands_channel _ ht
  exact ⟨t, (core_run_program s.program hb rfl).trans ht, ht, hprogram, hbusy.trans hb,
    step_waiting (hbusy.trans hb) hprogram⟩

end Sys2Proof.Machine

/-! SUPPORT. Invariants of a step (R100, R41): what every effect of an instruction and every raised error keeps, every
command keeps; what ignores the command channel besides, every step keeps. -/

namespace Sys2Proof.Machine

theorem runCommand_keeps {P : State → Prop}
    (heffect : ∀ {i : Instr} {s t : State}, P s → Effect s i t → P t)
    (herror : ∀ {s : State} {code : ErrCode}, P s → P (s.withError code))
    {c : Command} {s t : State} (hs : P s) (h : runCommand c s = .next t) : P t := by
  rcases runCommand_next h with ⟨i, -, he⟩ | ⟨why, -, ⟨-, rfl⟩ | ⟨-, rfl⟩⟩
  · exact heffect hs he
  · exact herror hs
  · exact hs

theorem step_in_flight {s : State} (hb : s.busy = true) : step s = runCommand s.latch s.retire := by
  rw [step, completeNext, fetch_busy hb]

/-- The inversion lemma of the step: it waits, or it runs the command presented, or it completes the one in flight. -/
theorem step_next {s t : State} (h : step s = .next t) :
    (s.busy = false ∧ t = s) ∨
    (∃ c rest, s.busy = false ∧ s.program = c :: rest ∧ runCommand c (s.withProgram rest) = .next t) ∨
    (s.busy = true ∧ runCommand s.latch s.retire = .next t) := by
  cases hb : s.busy with
  | false =>
    cases hp : s.program with
    | nil =>
      rw [step_waiting hb hp] at h
      cases h
      exact .inl ⟨rfl, rfl⟩
    | cons c rest => exact .inr (.inl ⟨c, rest, rfl, rfl, step_presented hb hp ▸ h⟩)
  | true => exact .inr (.inr ⟨rfl, step_in_flight hb ▸ h⟩)

theorem step_keeps {P : State → Prop}
    (hcommand : ∀ {c : Command} {s t : State}, P s → runCommand c s = .next t → P t)
    (hprogram : ∀ {s : State} {rest : List Command}, P s → P (s.withProgram rest))
    (hretire : ∀ {s : State}, P s → P s.retire)
    {s t : State} (hs : P s) (h : step s = .next t) : P t := by
  rcases step_next h with ⟨-, rfl⟩ | ⟨c, rest, -, -, hrun⟩ | ⟨-, hrun⟩
  · exact hs
  · exact hcommand (hprogram hs) hrun
  · exact hcommand (hretire hs) hrun

end Sys2Proof.Machine

/-! SUPPORT. The invariants of the visible state (R25), over effects, commands and steps. -/

namespace Sys2Proof.Machine

theorem Effect.sound {i : Instr} {s t : State} (hs : s.Sound) (h : Effect s i t) : t.Sound := by
  obtain ⟨hklen, hv, hm, hdigest⟩ := hs
  cases h with
  | gated | nop | keyInAbsorb | initInAbsorb | initKeyLength | blockOutside | finalOutside =>
    exact ⟨hklen, hv, hm, hdigest⟩
  | key _ _ _ _ hp => exact ⟨fun ha => absurd ha hp, hv, hm, hdigest⟩
  | init _ _ hk =>
    exact ⟨fun _ => BitVec.eq_of_toNat_eq hk, fun hn => absurd rfl hn, fun hn => absurd rfl hn, fun _ => rfl⟩
  | block _ _ hp => exact ⟨hklen, fun hn => absurd hp hn, fun hn => absurd hp hn, hdigest⟩
  | final => exact ⟨nofun, fun _ => rfl, fun _ => rfl, fun hn => absurd rfl hn⟩
  | clr => exact ⟨nofun, fun _ => rfl, fun _ => rfl, fun _ => rfl⟩

/-- None of the invariants reads the command channel, the host's program, ERR or the fault mark. -/
theorem State.Sound.of_eq {s t : State} (hs : s.Sound) (hphase : t.phase = s.phase) (hklen : t.klen = s.klen)
    (hv : t.v = s.v) (hm : t.m = s.m) (hdigest : t.digest = s.digest) : t.Sound := by
  constructor <;> simp only [hphase, hklen, hv, hm, hdigest]
  · exact hs.absorb_klen
  · exact hs.v_zero
  · exact hs.m_zero
  · exact hs.digest_zero

theorem runCommand_sound {c : Command} {s t : State} (hs : s.Sound) (h : runCommand c s = .next t) : t.Sound :=
  runCommand_keeps Effect.sound (fun hs => hs.of_eq rfl rfl rfl rfl rfl) hs h

theorem step_sound {s t : State} (hs : s.Sound) (h : step s = .next t) : t.Sound :=
  step_keeps runCommand_sound (fun hs => hs.of_eq rfl rfl rfl rfl rfl) (fun hs => hs.of_eq rfl rfl rfl rfl rfl) hs h

theorem State.retire_atBoundary (s : State) : s.retire.AtBoundary := ⟨rfl, rfl, rfl⟩

theorem runCommand_atBoundary {c : Command} {s t : State} (hs : s.AtBoundary) (h : runCommand c s = .next t) :
    t.AtBoundary := by
  obtain ⟨hbusy, hlatch, hcycles, -⟩ := runCommand_channel h
  exact ⟨hbusy.trans hs.not_busy, hlatch.trans hs.latch_empty, hcycles.trans hs.no_cycles⟩

theorem step_atBoundary {s t : State} (hs : s.LatchClean) (h : step s = .next t) : t.AtBoundary := by
  rcases step_next h with ⟨hb, rfl⟩ | ⟨c, rest, hb, -, hrun⟩ | ⟨-, hrun⟩
  · exact hs hb
  · obtain ⟨hbusy, hlatch, hcycles⟩ := hs hb
    exact runCommand_atBoundary (s := s.withProgram rest) ⟨hbusy, hlatch, hcycles⟩ hrun
  · exact runCommand_atBoundary s.retire_atBoundary hrun

theorem Phase.code_ne_three (p : Phase) : p.code ≠ 3#2 := by
  cases p <;> decide

theorem ErrCode.code_le_three (e : ErrCode) : e.code.toNat ≤ 3 := by
  cases e <;> decide

/-- Settles O22: each effect keeps R25's invariants, a command leaves the latch as it finds it, and a step finds it
empty or empties it. -/
theorem stepKeepsVisibleInvariants : Obligations.StepKeepsVisibleInvariants :=
  fun _ t hs hl h => ⟨step_sound hs h, fun _ => step_atBoundary hl h, t.phase.code_ne_three, t.err.code_le_three,
    Nat.le_of_lt_succ t.klen.isLt⟩

end Sys2Proof.Machine

/-! SUPPORT. The same invariants over a clock cycle at the ports, reset included (R130, R131, R41). -/

namespace Sys2Proof.Machine

/-- The inversion lemma of the clock edge: reset, completion, a cycle inside a command, acceptance, or nothing. -/
theorem clockEdge_next {lat : Config.Latencies} {p : PortIn} {s t : State} (h : clockEdge lat p s = .next t) :
    t = s.resetCore ∨ (s.busy = true ∧ runCommand s.latch s.retire = .next t) ∨ (s.busy = true ∧ t = s.countDown) ∨
    (s.busy = false ∧ t = s.accept p.command (latency lat p.command s)) ∨ (s.busy = false ∧ t = s) := by
  unfold clockEdge at h
  split at h
  · cases h; exact .inl rfl
  split at h
  next hb =>
    split at h
    · exact .inr (.inl ⟨hb, h⟩)
    · cases h; exact .inr (.inr (.inl ⟨hb, rfl⟩))
  next hb =>
    have hb' : s.busy = false := Bool.eq_false_iff.mpr hb
    split at h
    · cases h; exact .inr (.inr (.inr (.inl ⟨hb', rfl⟩)))
    · cases h; exact .inr (.inr (.inr (.inr ⟨hb', rfl⟩)))

theorem State.resetCore_sound (s : State) : s.resetCore.Sound := ⟨nofun, fun _ => rfl, fun _ => rfl, fun _ => rfl⟩

theorem State.resetCore_atBoundary (s : State) : s.resetCore.AtBoundary := ⟨rfl, rfl, rfl⟩

section

variable {s t : State}

theorem clockEdge_sound {lat : Config.Latencies} {p : PortIn} (hs : s.Sound) (h : clockEdge lat p s = .next t) :
    t.Sound := by
  rcases clockEdge_next h with rfl | ⟨-, hrun⟩ | ⟨-, rfl⟩ | ⟨-, rfl⟩ | ⟨-, rfl⟩
  · exact s.resetCore_sound
  · exact runCommand_sound (s := s.retire) (hs.of_eq rfl rfl rfl rfl rfl) hrun
  · exact hs.of_eq rfl rfl rfl rfl rfl
  · exact hs.of_eq rfl rfl rfl rfl rfl
  · exact hs

/-- A state with BUSY = 0 is one that reset, a completion or an edge without an offer has left. -/
theorem clockEdge_latchClean {lat : Config.Latencies} {p : PortIn} (hs : s.LatchClean)
    (h : clockEdge lat p s = .next t) : t.LatchClean := by
  intro hbusy
  rcases clockEdge_next h with rfl | ⟨-, hrun⟩ | ⟨hb, rfl⟩ | ⟨-, rfl⟩ | ⟨-, rfl⟩
  · exact s.resetCore_atBoundary
  · exact runCommand_atBoundary s.retire_atBoundary hrun
  · exact absurd (hb.symm.trans hbusy) (by decide)
  · exact absurd hbusy (by simp)
  · exact hs hbusy

/-- Before the edge the state is as it was or reset. -/
theorem settle_eq (style : Config.ResetStyle) (p : PortIn) (s : State) :
    settle style p s = s ∨ settle style p s = s.resetCore := by
  cases style with
  | synchronous => exact .inl rfl
  | asynchronous => exact (ite_eq_or_eq _ _ _).symm

theorem cycle_invariants {cfg : Config.Params} {p : PortIn} (hs : s.Sound) (hl : s.LatchClean)
    (h : cycle cfg p s = .next t) : t.Sound ∧ t.LatchClean := by
  rw [cycle] at h
  rcases settle_eq cfg.resetStyle p s with hsettle | hsettle <;> rw [hsettle] at h
  · exact ⟨clockEdge_sound hs h, clockEdge_latchClean hl h⟩
  · exact ⟨clockEdge_sound s.resetCore_sound h, clockEdge_latchClean (fun _ => s.resetCore_atBoundary) h⟩

end

/-- The core of a port-level state moves by a clock cycle, and the host holds what `nextHeld` says. -/
theorem portCycle_next {cfg : Config.Params} {p : PortIn} {s t : PortState} (h : portCycle cfg p s = .next t) :
    cycle cfg p s.core = .next t.core ∧ t.held = nextHeld p s.core := by
  unfold portCycle at h
  split at h
  · cases h
  · split at h
    next u hu => cases h; exact ⟨hu, rfl⟩
    next => cases h
    next => cases h

/-- Settles O24: each kind of clock edge keeps the invariants, and so does reset before it. -/
theorem portsKeepVisibleInvariants : Obligations.PortsKeepVisibleInvariants :=
  fun _ _ _ _ hs hl h => cycle_invariants hs hl (portCycle_next h).1

end Sys2Proof.Machine

/-! SUPPORT. One clock cycle of core and host, case by case (R41, R135), and the command-level state it stands for. -/

namespace Sys2Proof.Machine

theorem cycle_of_not_rst (cfg : Config.Params) {p : PortIn} (h : p.rst = false) (s : State) :
    cycle cfg p s = clockEdge cfg.lat p s := by
  rw [cycle, settle_of_not_rst _ h]

theorem systemCycle_eq_clockEdge (cfg : Config.Params) (offer : Bool) (s : State) :
    systemCycle cfg offer s =
      clockEdge cfg.lat (hostDrive offer s) (s.advanceHost (accepts (hostDrive offer s) s)) :=
  cycle_of_not_rst cfg (hostDrive_rst offer s) _

/-- The host keeps its place in the program unless the core takes an offer. -/
theorem systemCycle_not_taken (cfg : Config.Params) {offer : Bool} {s : State}
    (h : accepts (hostDrive offer s) s = false) :
    systemCycle cfg offer s = clockEdge cfg.lat (hostDrive offer s) s := by
  rw [systemCycle_eq_clockEdge, h]
  rfl

section

variable (cfg : Config.Params) (offer : Bool) {s : State} (hb : s.busy = true)

include hb

theorem systemCycle_busy : systemCycle cfg offer s = clockEdge cfg.lat (hostDrive offer s) s :=
  systemCycle_not_taken cfg (by simp [accepts, cmdReady, hb])

theorem systemCycle_complete (hc : s.cyclesLeft ≤ 1) :
    systemCycle cfg offer s = runCommand s.latch s.retire :=
  (systemCycle_busy cfg offer hb).trans (clockEdge_complete cfg.lat (hostDrive_rst offer s) hb hc)

theorem systemCycle_count (hc : 1 < s.cyclesLeft) : systemCycle cfg offer s = .next s.countDown :=
  (systemCycle_busy cfg offer hb).trans (clockEdge_count cfg.lat (hostDrive_rst offer s) hb hc)

end

section

variable (cfg : Config.Params) {s : State} (hb : s.busy = false)

include hb

theorem systemCycle_wait {offer : Bool} (h : (hostDrive offer s).cmdValid = false) :
    systemCycle cfg offer s = .next s :=
  (systemCycle_not_taken cfg (by simp [accepts, h])).trans
    (clockEdge_wait cfg.lat (hostDrive_rst offer s) hb h)

/-- The latency read at the accepting edge does not depend on the commands the host has left. -/
theorem systemCycle_accept {c : Command} {rest : List Command} (hp : s.program = c :: rest) :
    systemCycle cfg true s = .next ((s.withProgram rest).accept c (latency cfg.lat c s)) := by
  obtain ⟨hcmd, hvalid⟩ := hostDrive_command hp true
  have htaken : accepts (hostDrive true s) s = true := by simp [accepts, cmdReady, hvalid, hb]
  rw [systemCycle_eq_clockEdge, htaken, State.advanceHost, if_pos rfl, hp, List.tail_cons,
    clockEdge_accept cfg.lat (s := s.withProgram rest) (hostDrive_rst true s) hb hvalid, hcmd]
  rfl

end

/-- A host that has nothing to present, or pauses, offers nothing. -/
theorem hostDrive_no_offer {offer : Bool} {s : State} (h : s.program = [] ∨ offer = false) :
    (hostDrive offer s).cmdValid = false := by
  unfold hostDrive
  split
  next => rfl
  next hp => exact h.resolve_left (by simp [hp])

theorem commandView_of_not_busy {s : State} (h : s.busy = false) : commandView s = .next s :=
  if_neg (by simp [h])

theorem commandView_of_busy {s : State} (h : s.busy = true) : commandView s = runCommand s.latch s.retire :=
  if_pos h

theorem State.AtBoundary.retire_eq {s : State} (h : s.AtBoundary) : s.retire = s := by
  obtain ⟨hbusy, hlatch, hcycles⟩ := h
  simp [State.retire, ← hbusy, ← hlatch, ← hcycles]

/-- At a command boundary the command accepted, taken as completed, is the command step (R41, R100). -/
theorem commandView_accept {s : State} (hs : s.AtBoundary) {c : Command} {rest : List Command}
    (hp : s.program = c :: rest) (n : Nat) : commandView ((s.withProgram rest).accept c n) = step s := by
  rw [commandView_of_busy rfl, step_presented hs.not_busy hp, State.accept_latch, State.retire_accept,
    State.retire_withProgram, hs.retire_eq]

theorem systemCycle_busy_refines (cfg : Config.Params) (offer : Bool) {s : State} (hb : s.busy = true) :
    ∃ t, systemCycle cfg offer s = .next t ∧ t.LatchClean ∧ commandView t = commandView s ∧
      t.program = s.program := by
  rw [commandView_of_busy hb]
  by_cases hc : s.cyclesLeft ≤ 1
  · obtain ⟨t, ht⟩ := runCommand_completes s.latch s.retire
    have hboundary := runCommand_atBoundary s.retire_atBoundary ht
    obtain ⟨-, -, -, hprogram⟩ := runCommand_channel ht
    exact ⟨t, (systemCycle_complete cfg offer hb hc).trans ht, fun _ => hboundary,
      (commandView_of_not_busy hboundary.not_busy).trans ht.symm, hprogram⟩
  · refine ⟨s.countDown, systemCycle_count cfg offer hb (by omega), fun hn => ?_, commandView_of_busy hb, rfl⟩
    exact absurd (hb.symm.trans hn) (by decide)

/-- Settles O47: an edge within or at the end of a command keeps the command-level state, and an accepting edge makes
the command step; without an offer nothing changes. -/
theorem portsRefineCommandSteps : Obligations.PortsRefineCommandSteps := by
  intro cfg offer s hl
  cases hb : s.busy with
  | true =>
    obtain ⟨t, ht, hclean, hview, hprogram⟩ := systemCycle_busy_refines cfg offer hb
    exact ⟨t, ht, hclean, .inl ⟨hview, hprogram⟩⟩
  | false =>
    by_cases hidle : s.program = [] ∨ offer = false
    · exact ⟨s, systemCycle_wait cfg hb (hostDrive_no_offer hidle), hl, .inl ⟨rfl, rfl⟩⟩
    · obtain ⟨hp, ho⟩ := not_or.mp hidle
      obtain ⟨c, rest, hcons⟩ := List.exists_cons_of_ne_nil hp
      have hoffer : offer = true := by simpa using ho
      subst hoffer
      refine ⟨_, systemCycle_accept cfg hb hcons, nofun, .inr ⟨rfl, rfl, hp, rfl, ?_, ?_⟩⟩
      · rw [hcons]; rfl
      · exact commandView_accept (hl hb) hcons _

end Sys2Proof.Machine

/-! SUPPORT. A command in flight over several clock cycles (R41, R137, R140). -/

namespace Sys2Proof.Machine

theorem instrLatency_pos {lat : Config.Latencies} (h : lat.wf) (i : Instr) : 1 ≤ instrLatency lat i := by
  obtain ⟨hnop, hkey, hinit, hblock, hfinal, hclr, -⟩ := h
  cases i <;> assumption

theorem latency_pos {lat : Config.Latencies} (h : lat.wf) (c : Command) (s : State) : 1 ≤ latency lat c s := by
  unfold latency
  split
  next i _ =>
    split
    · exact instrLatency_pos h i
    · exact instrLatency_pos h .nop
  next =>
    split
    · obtain ⟨-, -, -, -, -, -, hillegal⟩ := h
      exact hillegal
    · exact instrLatency_pos h .nop

theorem systemCycles_cons (cfg : Config.Params) {offer : Bool} {s t : State} (h : systemCycle cfg offer s = .next t)
    (sched : List Bool) : systemCycles cfg (offer :: sched) s = systemCycles cfg sched t := by
  simp [systemCycles, h]

section

variable (cfg : Config.Params) (s : State) (c : Command)

/-- An edge inside a command changes the count alone, whatever the host offers. -/
theorem systemCycle_accept_count (offer : Bool) (n : Nat) :
    systemCycle cfg offer (s.accept c (n + 2)) = .next (s.accept c (n + 1)) :=
  systemCycle_count cfg offer rfl (by rw [State.accept_cyclesLeft]; omega)

theorem systemCycles_inFlight (sched : List Bool) (n : Nat) :
    systemCycles cfg sched (s.accept c (sched.length + (n + 1))) = .next (s.accept c (n + 1)) := by
  induction sched with
  | nil => rw [List.length_nil, Nat.zero_add]; rfl
  | cons offer sched ih =>
    have hlen : (offer :: sched).length + (n + 1) = sched.length + n + 2 := by rw [List.length_cons]; omega
    rw [hlen, systemCycles_cons cfg (systemCycle_accept_count cfg s c offer _)]
    exact ih

/-- As many cycles as are left end in the completion of the command. -/
theorem systemCycles_complete (offer : Bool) (sched : List Bool) :
    systemCycles cfg (offer :: sched) (s.accept c (sched.length + 1)) = runCommand c s.retire := by
  induction sched generalizing offer with
  | nil =>
    obtain ⟨t, ht⟩ := runCommand_completes c s.retire
    have hlast : systemCycle cfg offer (s.accept c 1) = .next t :=
      (systemCycle_complete cfg offer rfl le_rfl).trans ht
    exact (systemCycles_cons cfg hlast []).trans ht.symm
  | cons offer' sched ih =>
    exact (systemCycles_cons cfg (systemCycle_accept_count cfg s c offer _) _).trans (ih offer')

end

theorem fieldAt_true : fieldAt 0 (BitVec.ofBool true) = 1#32 := by decide

theorem fieldAt_false : fieldAt 0 (BitVec.ofBool false) = 0#32 := by decide

/-- BUSY is bit 0 of STATUS, and no other field shows the acceptance (R20, R137). -/
theorem outputs_accept {s : State} (hb : s.busy = false) (c : Command) (n : Nat) :
    outputs (s.accept c n) = ⟨false, status s ||| 1#32, s.digest⟩ := by
  have hstatus : status (s.accept c n) = status s ||| 1#32 := by
    rw [status_eq_fields, status_eq_fields, hb]
    simp only [State.accept_busy, State.accept_phase, State.accept_err, State.accept_klen, State.accept_len8,
      fieldAt_true, fieldAt_false, BitVec.zero_or, BitVec.or_assoc, BitVec.or_comm (1#32)]
  rw [outputs, hstatus]
  rfl

/-- Settles O48: the accepting edge sets the count to the latency, each edge before the last counts down, and the last
runs the command. -/
theorem commandTakesItsLatency : Obligations.CommandTakesItsLatency := by
  intro cfg s c rest sched ⟨hlat, _⟩ hs hp hlen
  have haccept := systemCycles_cons cfg (systemCycle_accept cfg hs.not_busy hp)
  refine ⟨fun k hk => ?_, ?_⟩
  · have hcount : latency cfg.lat c s = (sched.take k).length + ((sched.length - k - 1) + 1) := by
      rw [List.length_take, Nat.min_eq_left hk.le, hlen]
      omega
    have hrun := systemCycles_inFlight cfg (s.withProgram rest) c (sched.take k) (sched.length - k - 1)
    rw [← hcount, ← haccept] at hrun
    exact ⟨_, hrun, rfl, outputs_accept (s := s.withProgram rest) hs.not_busy c _⟩
  · have hpos := latency_pos hlat c s
    obtain ⟨offer, tail, rfl⟩ := List.exists_cons_of_length_pos (hlen ▸ hpos : 0 < sched.length)
    rw [haccept, ← hlen, List.length_cons, systemCycles_complete, step_presented hs.not_busy hp,
      State.retire_withProgram, hs.retire_eq]

end Sys2Proof.Machine

/-! SUPPORT. What the ports do under `rst`, with a command in flight, and with a host that breaks the handshake (R130,
R131, R134, R135). -/

namespace Sys2Proof.Machine

theorem resetCore_resetCore (s : State) : s.resetCore.resetCore = s.resetCore := rfl

theorem resetCore_settle (style : Config.ResetStyle) (p : PortIn) (s : State) :
    (settle style p s).resetCore = s.resetCore := by
  rcases settle_eq style p s with hsettle | hsettle <;> rw [hsettle]
  exact resetCore_resetCore s

/-- In either style the registers hold their reset values after the edge (R131). -/
theorem cycle_rst (cfg : Config.Params) {p : PortIn} (h : p.rst = true) (s : State) :
    cycle cfg p s = .next s.resetCore := by
  rw [cycle, clockEdge_rst _ h, resetCore_settle]

theorem settle_asynchronous_rst {p : PortIn} (h : p.rst = true) (s : State) :
    settle .asynchronous p s = s.resetCore := if_pos h

theorem outputs_resetCore (s : State) : outputs s.resetCore = ⟨true, 0#32, 0#64⟩ := by
  have hstatus : status s.resetCore = 0#32 := by
    show status State.reset = 0#32
    decide
  rw [outputs, hstatus]
  rfl

/-- Settles O28: reset before the edge or at it, and the register values of the reset state. -/
theorem resetGivesResetValues : Obligations.ResetGivesResetValues := by
  refine ⟨fun cfg p s h => ?_, fun s => ?_, rfl⟩
  · exact ⟨cycle_rst cfg h s, by simp [accepts, h], settle_asynchronous_rst h s, outputs_resetCore s⟩
  · exact ⟨rfl, rfl, fun i hi => keyByte_zero i hi, rfl, rfl, rfl, rfl, rfl, rfl, s.resetCore_atBoundary, rfl, rfl⟩

theorem State.ResetLaunch.cleanEntry {s : State} (h : s.ResetLaunch) : s.CleanEntry := by
  have hreset : s = s.resetCore := h
  rw [hreset]
  exact ⟨s.resetCore_atBoundary, rfl, s.resetCore_sound, rfl⟩

/-- Settles O23: the reset state is its own reset, which is at a boundary and satisfies R25's invariants. -/
theorem resetSatisfiesInvariants : Obligations.ResetSatisfiesInvariants :=
  ⟨State.reset.resetCore_sound, fun _ => State.reset.resetCore_atBoundary, fun i hi _ => keyByte_zero i hi,
    fun he => absurd rfl he, fun _ => State.ResetLaunch.cleanEntry⟩

/-- With BUSY = 1 an edge looks at the count and not at the inputs (R41). -/
theorem clockEdge_busy (lat : Config.Latencies) {p : PortIn} {s : State} (hr : p.rst = false) (hb : s.busy = true) :
    clockEdge lat p s = if s.cyclesLeft ≤ 1 then runCommand s.latch s.retire else .next s.countDown := by
  simp [clockEdge, hr, hb]

/-- Settles O49: under BUSY = 1 the edge is the same function of the state for all inputs. -/
theorem inputsInFlightAreNotSampled : Obligations.InputsInFlightAreNotSampled := by
  intro cfg p q s hb hp hq
  rw [cycle_of_not_rst cfg hp, cycle_of_not_rst cfg hq, clockEdge_busy _ hp hb, clockEdge_busy _ hq hb]

theorem clockEdge_completes (lat : Config.Latencies) (p : PortIn) (s : State) : ∃ t, clockEdge lat p s = .next t := by
  unfold clockEdge
  split
  · exact ⟨_, rfl⟩
  split
  · split
    · exact runCommand_completes _ _
    · exact ⟨_, rfl⟩
  · split <;> exact ⟨_, rfl⟩

theorem breaksHandshake_iff (held : Option Command) (p : PortIn) :
    breaksHandshake held p = true ↔ p.cmdValid = true ∧ ∃ c, held = some c ∧ p.command ≠ c := by
  cases held <;> simp [breaksHandshake]

theorem nextHeld_eq_some_iff (p : PortIn) (s : State) (c : Command) :
    nextHeld p s = some c ↔ p.cmdValid = true ∧ s.busy = true ∧ p.rst = false ∧ p.command = c := by
  simp [nextHeld, and_assoc]

theorem portCycle_refused {cfg : Config.Params} {p : PortIn} {s : PortState} (hr : p.rst = false)
    (h : breaksHandshake s.held p = true) : portCycle cfg p s = .refused .handshakeBroken := by
  simp [portCycle, hr, h]

theorem portCycle_completes (cfg : Config.Params) {p : PortIn} {s : PortState}
    (h : ¬(p.rst = false ∧ breaksHandshake s.held p = true)) : ∃ t, portCycle cfg p s = .next t := by
  obtain ⟨t, ht⟩ := clockEdge_completes cfg.lat p (settle cfg.resetStyle p s.core)
  have hcycle : cycle cfg p s.core = .next t := ht
  have hkept : ¬(!p.rst && breaksHandshake s.held p) = true := by simpa using h
  exact ⟨⟨t, nextHeld p s.core⟩, by rw [portCycle, if_neg hkept, hcycle]⟩

theorem portCycle_refused_iff (cfg : Config.Params) (p : PortIn) (s : PortState) :
    portCycle cfg p s = .refused .handshakeBroken ↔ p.rst = false ∧ breaksHandshake s.held p = true := by
  constructor
  · intro h
    by_contra hn
    obtain ⟨t, ht⟩ := portCycle_completes cfg hn
    cases ht.symm.trans h
  · exact fun ⟨hr, hbreak⟩ => portCycle_refused hr hbreak

/-- Settles O50: a cycle is refused exactly on a broken handshake; every other one completes, and leaves `nextHeld`. -/
theorem brokenHandshakeHasNoMove : Obligations.BrokenHandshakeHasNoMove := by
  intro cfg p s
  refine ⟨?_, fun t ht c => ?_, ?_⟩
  · rw [portCycle_refused_iff, breaksHandshake_iff]
  · rw [(portCycle_next ht).2, nextHeld_eq_some_iff]
  · by_cases hbreak : p.rst = false ∧ breaksHandshake s.held p = true
    · exact .inr ((portCycle_refused_iff cfg p s).mpr hbreak)
    · exact .inl (portCycle_completes cfg hbreak)

end Sys2Proof.Machine

/-! SUPPORT. The step of one core (R100, R121): what it runs, and that it leaves the other cores alone. -/

namespace Sys2Proof.Machine

theorem step_presenting (c : Command) (s : State) : step (s.presenting c) = runCommand c s.retire :=
  step_presented (s := s.presenting c) rfl rfl

/-- Settles O7: the command presented, the command in flight, or neither; and each command by what it decodes to. -/
theorem stepRunsDecodedCommand : Obligations.StepRunsDecodedCommand := by
  refine ⟨fun s c rest i hb hp hd => ?_, fun s c rest why hb hp hd => ?_, fun s i hb hd => ?_, fun s why hb hd => ?_,
    fun s hb hp => step_waiting hb hp⟩
  · exact (step_presented hb hp).trans (runCommand_instr hd _)
  · exact (step_presented hb hp).trans (runCommand_illegal hd _)
  · exact (step_in_flight hb).trans (runCommand_instr hd _)
  · exact (step_in_flight hb).trans (runCommand_illegal hd _)

theorem decodeTableWord_eq_some_iff (nbits w : Nat) (i : Instr) :
    decodeTableWord nbits w = some i ↔ decode (commandOfBits nbits w) = .instr i := by
  unfold decodeTableWord
  split
  next j hj => simp [hj]
  next why hw => simp [hw]

/-- Settles O8: the placed command is presented to an idle core. -/
theorem fetchWordRunsNext : Obligations.FetchWordRunsNext := fun s nbits w i hw =>
  (step_presenting _ s).trans (runCommand_instr ((decodeTableWord_eq_some_iff nbits w i).mp hw) _)

/-- Settles O9: gated or not, every meaning answers. -/
theorem everyCommandCompletes : Obligations.EveryCommandCompletes := runCommand_completes

theorem step_completes (s : State) : ∃ t, step s = .next t := by
  unfold step completeNext
  split
  · exact ⟨s, rfl⟩
  · exact runCommand_completes _ _

theorem stepCore_eq {n : Nat} (p : Platform n) (k : Fin n) {t : State} (h : step p[k] = .next t) :
    p.stepCore k = .next (p.set k t) := by
  rw [Platform.stepCore, h]

/-- Settles O52: a platform step writes one element of the vector of cores. -/
theorem coresShareNoState : Obligations.CoresShareNoState := by
  refine ⟨fun n p k => ?_, fun cfg j => Vector.getElem_replicate _⟩
  obtain ⟨t, ht⟩ := step_completes p[k]
  refine ⟨_, t, stepCore_eq p k ht, ht, Vector.getElem_set_self _, fun j hj => ?_⟩
  exact Vector.getElem_set_ne _ _ fun hkj => hj (Fin.ext hkj.symm)

end Sys2Proof.Machine

/-! SUPPORT. Two states that differ at most in KEYBUF, V0..V3 and M (R13, R119), written as one state and a replacement
of these, and the effects an instruction has from both. -/

namespace Sys2Proof.Machine

/-- The state with KEYBUF, V0..V3 and M replaced. -/
def State.withSecrets (k : KeyBuf) (v : Perm) (m : Word) (s : State) : State := { s with keybuf := k, v := v, m := m }

/-- The state with DIGEST replaced. -/
def State.withDigest (w : Word) (s : State) : State := { s with digest := w }

theorem State.samePublic_withSecrets (s : State) (k : KeyBuf) (v : Perm) (m : Word) :
    s.SamePublic (s.withSecrets k v m) :=
  ⟨rfl, rfl, rfl, rfl, rfl, rfl, rfl, rfl, rfl, rfl⟩

theorem State.SamePublic.eq_withSecrets {s t : State} (h : s.SamePublic t) :
    t = s.withSecrets t.keybuf t.v t.m := by
  obtain ⟨hklen, hlen8, hphase, herr, hdigest, hbusy, hlatch, hcycles, hfaulted, hprogram⟩ := h
  simp only [State.withSecrets, hklen, hlen8, hphase, herr, hdigest, hbusy, hlatch, hcycles, hfaulted, hprogram]

section

variable {s s' : State} (k : KeyBuf) (v : Perm) (m : Word)

/-- No check reads the secrets, and what an instruction other than FINAL makes of them it writes to the secrets. -/
theorem Effect.withSecrets {i : Instr} (h : Effect s i s') (hi : ∀ n d, i ≠ .final n d) :
    ∃ k' v' m', Effect (s.withSecrets k v m) i (s'.withSecrets k' v' m') := by
  cases h with
  | gated i h hi => exact ⟨k, v, m, .gated (s := s.withSecrets k v m) i h hi⟩
  | nop h => exact ⟨k, v, m, .nop (s := s.withSecrets k v m) h⟩
  | keyInAbsorb st nk d h hp => exact ⟨k, v, m, .keyInAbsorb (s := s.withSecrets k v m) st nk d h hp⟩
  | key st nk d h hp => exact ⟨_, v, m, .key (s := s.withSecrets k v m) st nk d h hp⟩
  | initInAbsorb h hp => exact ⟨k, v, m, .initInAbsorb (s := s.withSecrets k v m) h hp⟩
  | initKeyLength h hp hk => exact ⟨k, v, m, .initKeyLength (s := s.withSecrets k v m) h hp hk⟩
  | init h hp hk => exact ⟨k, _, _, .init (s := s.withSecrets k v m) h hp hk⟩
  | blockOutside d h hp => exact ⟨k, v, m, .blockOutside (s := s.withSecrets k v m) d h hp⟩
  | block d h hp => exact ⟨k, _, d, .block (s := s.withSecrets k v m) d h hp⟩
  | finalOutside n d | final n d => exact absurd rfl (hi n d)
  | clr => exact ⟨k, _, _, .clr (s := s.withSecrets k v m)⟩

/-- FINAL writes what it makes of the secrets to DIGEST as well. -/
theorem Effect.final_withSecrets {n : Nat} {d : Word} (h : Effect s (.final n d) s') :
    ∃ k' v' m' w, Effect (s.withSecrets k v m) (.final n d) ((s'.withSecrets k' v' m').withDigest w) := by
  cases h with
  | gated i h hi => exact ⟨k, v, m, s.digest, .gated (s := s.withSecrets k v m) _ h hi⟩
  | finalOutside n d h hp => exact ⟨k, v, m, s.digest, .finalOutside (s := s.withSecrets k v m) n d h hp⟩
  | final n d h hp => exact ⟨k, _, _, _, .final (s := s.withSecrets k v m) n d h hp⟩

end

/-- An illegal word raises its error, or is ignored, whatever the secrets are. -/
theorem runCommand_illegal_withSecrets {c : Command} {why : IllegalReason} (hd : decode c = .illegal why) {s s' : State}
    (h : runCommand c s = .next s') (k : KeyBuf) (v : Perm) (m : Word) :
    runCommand c (s.withSecrets k v m) = .next (s'.withSecrets k v m) := by
  rw [runCommand_illegal hd] at h
  rcases execIllegal_next h with ⟨he, rfl⟩ | ⟨he, rfl⟩
  · exact runCommand_illegal_open (s := s.withSecrets k v m) hd he
  · exact (runCommand_illegal hd _).trans (gated_shut (s := s'.withSecrets k v m) he _)

section

variable {c : Command} {s t s' t' : State} (h : s.SamePublic t) (hs : runCommand c s = .next s')
  (ht : runCommand c t = .next t')

include h hs ht

theorem runCommand_samePublic (hc : ∀ n d, decode c ≠ .instr (.final n d)) : s'.SamePublic t' := by
  rw [h.eq_withSecrets] at ht
  cases hd : decode c with
  | instr i =>
    have hi : ∀ n d, i ≠ .final n d := fun n d hf => hc n d (hf ▸ hd)
    obtain ⟨k, v, m, he⟩ := (runCommand_effect hs hd).withSecrets t.keybuf t.v t.m hi
    cases ((runCommand_instr hd _).trans he.exec_eq).symm.trans ht
    exact s'.samePublic_withSecrets k v m
  | illegal why =>
    cases (runCommand_illegal_withSecrets hd hs t.keybuf t.v t.m).symm.trans ht
    exact s'.samePublic_withSecrets ..

theorem runCommand_final_status {n : Nat} {d : Word} (hd : decode c = .instr (.final n d)) :
    status s' = status t' ∧ cmdReady s' = cmdReady t' := by
  rw [h.eq_withSecrets] at ht
  obtain ⟨k, v, m, w, he⟩ := (runCommand_effect hs hd).final_withSecrets t.keybuf t.v t.m
  cases ((runCommand_instr hd _).trans he.exec_eq).symm.trans ht
  exact ⟨rfl, rfl⟩

end

/-- The outputs read public fields only (R20, R30). -/
theorem State.SamePublic.outputs_eq {s t : State} (h : s.SamePublic t) : outputs s = outputs t := by
  rw [h.eq_withSecrets]
  rfl

theorem runCommands_samePublic {cs : List Command} {s t s' t' : State} (h : s.SamePublic t)
    (hcs : ∀ c ∈ cs, ∀ n d, decode c ≠ .instr (.final n d))
    (hs : runCommands cs s = .next s') (ht : runCommands cs t = .next t') : s'.SamePublic t' := by
  induction cs generalizing s t with
  | nil => cases hs; cases ht; exact h
  | cons c cs ih =>
    obtain ⟨hc, hrest⟩ := List.forall_mem_cons.mp hcs
    obtain ⟨u, hu, hus⟩ := runCommands_cons_next hs
    obtain ⟨w, hw, hwt⟩ := runCommands_cons_next ht
    exact ih (runCommand_samePublic h hu hw hc) hrest hus hwt

/-- Settles O45: every command but FINAL keeps the states equal in what is public, and FINAL in what STATUS shows. -/
theorem keyReachesHostOnlyThroughDigest : Obligations.KeyReachesHostOnlyThroughDigest := by
  refine ⟨fun cs s t s' t' h hcs hs ht => ?_, fun c s t s' t' h hs ht => ?_⟩
  · have hpublic := runCommands_samePublic h hcs hs ht
    exact ⟨hpublic, hpublic.outputs_eq⟩
  · by_cases hfinal : ∃ n d, decode c = .instr (.final n d)
    · obtain ⟨n, d, hd⟩ := hfinal
      exact runCommand_final_status h hs ht hd
    · have hpublic := runCommand_samePublic h hs ht fun n d hd => hfinal ⟨n, d, hd⟩
      exact ⟨congrArg PortOut.status hpublic.outputs_eq, congrArg PortOut.cmdReady hpublic.outputs_eq⟩

end Sys2Proof.Machine

/-! SUPPORT. Decoder and encoder against each other (R46 to R54), the words of T34, and the lines that assemble to
encodings. -/

namespace Sys2Proof

/-- Settles O2: the decoder reads back the fields the encoder writes. -/
theorem decodeOfEncode : Obligations.DecodeOfEncode := fun _ => decode_encode

theorem key_wellFormed_iff (st : Bool) (nk : Nat) (d : Word) :
    (Instr.key st nk d).wellFormed = true ↔ 1 ≤ nk ∧ nk ≤ 8 := by
  simp [Instr.wellFormed, keyCountOk]

theorem final_wellFormed_iff (n : Nat) (d : Word) : (Instr.final n d).wellFormed = true ↔ n ≤ 7 := by
  simp [Instr.wellFormed, tailCountOk]

/-- The six shapes of a decoded word are the six shapes of an encoding, with counts a 3-bit field holds. -/
theorem encode_decode {c : Command} {i : Instr} (h : decode c = .instr i) :
    i.wellFormed = true ∧ encode i = ⟨c.cmd, if i.usesData then c.data else 0#64⟩ := by
  rcases decode_instr h with ⟨hw, rfl⟩ | ⟨s, n, hw, rfl⟩ | ⟨hw, rfl⟩ | ⟨hw, rfl⟩ | ⟨n, hw, rfl⟩ | ⟨hw, rfl⟩ <;> rw [hw]
  · exact ⟨rfl, rfl⟩
  · have hn := n.isLt
    refine ⟨(key_wellFormed_iff ..).mpr (by omega), ?_⟩
    rw [encode, Nat.add_sub_cancel, BitVec.ofNat_toNat, BitVec.setWidth_eq]
    rfl
  · exact ⟨rfl, rfl⟩
  · exact ⟨rfl, rfl⟩
  · have hn := n.isLt
    refine ⟨(final_wellFormed_iff ..).mpr (by omega), ?_⟩
    rw [encode, BitVec.ofNat_toNat, BitVec.setWidth_eq]
    rfl
  · exact ⟨rfl, rfl⟩

/-- Settles O3: shape by shape of the decoder's inversion lemma. -/
theorem encodeOfDecode : Obligations.EncodeOfDecode := fun _ _ => encode_decode

theorem decode_init {w : Word32} (h : w = 0x00000002#32) (d : Word) : decode ⟨w, d⟩ = .instr .init := by
  simp [decode, h]

theorem decode_block (d : Word) : decode ⟨0x00000003#32, d⟩ = .instr (.block d) := by
  simp [decode]

/-- Settles O1: the legal words by the fields they are made of, the others by a cause of R52 each. -/
theorem decodeReadsSpecWords : Obligations.DecodeReadsSpecWords := by
  refine fun d => ⟨(decode_nop_iff _).mpr rfl, decode_key false 0#3 d, decode_key true 0#3 d, decode_key true 7#3 d,
    decode_key false 6#3 d, decode_init rfl d, decode_block d, decode_final 0#3 d, decode_final 7#3 d,
    (decode_clr_iff _).mpr rfl, fun w hw => (decode_illegal_iff _).mpr ?_⟩
  show HasIllegalCause w
  simp only [List.mem_cons, List.not_mem_nil, or_false] at hw
  rcases hw with rfl | rfl | rfl | rfl | rfl | rfl | rfl | rfl | rfl | rfl | rfl | rfl | rfl <;> decide

namespace Machine

theorem encodeChecked_of_not_wellFormed {i : Instr} (h : i.wellFormed ≠ true) : encodeChecked i = none := if_neg h

theorem encodeChecked_decode {i : Instr} (h : i.wellFormed = true) :
    ∃ c, encodeChecked i = some c ∧ decode c = .instr i :=
  ⟨_, encodeChecked_of_wellFormed h, decode_encode h⟩

/-- Settles O54: a line assembles to the checked encoding of its instruction, which decodes to it where the count is in
range. -/
theorem assemblyLinesEncode : Obligations.AssemblyLinesEncode := by
  refine ⟨fun nk d => ⟨fun h => ?_, fun h => ?_⟩, fun n d => ⟨fun h => ?_, fun h => ?_, fun h => if_neg h⟩, rfl,
    fun _ => rfl, rfl, rfl, rfl, fun _ _ => rfl⟩
  · exact ⟨encodeChecked_decode ((key_wellFormed_iff false nk d).mpr h),
      encodeChecked_decode ((key_wellFormed_iff true nk d).mpr h)⟩
  · exact ⟨encodeChecked_of_not_wellFormed (mt (key_wellFormed_iff false nk d).mp h),
      encodeChecked_of_not_wellFormed (mt (key_wellFormed_iff true nk d).mp h)⟩
  · exact encodeChecked_decode ((final_wellFormed_iff n d).mpr h)
  · exact encodeChecked_of_not_wellFormed (mt (final_wellFormed_iff n d).mp (by omega))

theorem value_bytes {bs : List Byte} (h : bs.length ≤ 8) : (DataOperand.bytes bs).value = some (chunkWord bs 0) :=
  if_pos h

theorem lane_chunkWord (bs : List Byte) (j : Nat) {i : Nat} (h : i < 8) :
    lane (chunkWord bs j) i = bs.getD (8 * j + i) 0#8 :=
  lane_le64 _ h

/-- Settles O53: a byte list is the little-endian word of its first chunk. -/
theorem dataOperandsFillLanes : Obligations.DataOperandsFillLanes := by
  refine ⟨fun _ => rfl, fun bs h => ⟨_, value_bytes h, fun i hi => ?_⟩, fun bs h => if_neg h.not_ge, by decide⟩
  rw [lane_chunkWord bs 0 hi, Nat.mul_zero, Nat.zero_add]

end Machine

end Sys2Proof

/-! SUPPORT. DATA lanes a command does not use (R39, R50): KEY stores none of them, the pad mask clears them for FINAL,
and NOP, INIT and CLR have no operand. -/

namespace Sys2Proof.Machine

/-- Two commands that decode alike run alike. -/
theorem runCommand_congr {c c' : Command} {i : Instr} (h : decode c = .instr i) (h' : decode c' = .instr i)
    (s : State) : runCommand c s = runCommand c' s :=
  (runCommand_instr h s).trans (runCommand_instr h' s).symm

section

variable {n : Nat} {d d' : Word} (h : ∀ j, j < n → lane d j = lane d' j)

include h

theorem storeKeyBytes_congr (kb : KeyBuf) (base : Nat) :
    storeKeyBytes kb base d n = storeKeyBytes kb base d' n := by
  refine keyBuf_ext fun i hi => ?_
  rw [keyByte_store _ _ _ _ hi, keyByte_store _ _ _ _ hi]
  split
  next hin => exact h (i - base) (by omega)
  next => rfl

theorem pad_congr (len : BitVec 8) : pad d n len = pad d' n len := by
  rw [← le64_lane (pad d n len), ← le64_lane (pad d' n len)]
  refine le64_congr fun i hi => ?_
  rw [lane_pad d n len hi, lane_pad d' n len hi]
  split
  next hin => rw [h i hin]
  next => rfl

theorem exec_key_congr (st : Bool) (s : State) : exec (.key st n d) s = exec (.key st n d') s := by
  have hload : s.loadKey st n d = s.loadKey st n d' := by
    rw [State.loadKey, State.loadKey, storeKeyBytes_congr h]
  show execKey st n d s = execKey st n d' s
  rw [execKey, execKey, hload]

theorem exec_final_congr (s : State) : exec (.final n d) s = exec (.final n d') s := by
  have hclose : s.closeInvocation n d = s.closeInvocation n d' := by
    rw [State.closeInvocation, State.closeInvocation, finalDigest, finalDigest, pad_congr h]
  show execFinal n d s = execFinal n d' s
  rw [execFinal, execFinal, hclose]

end

/-- Settles O6: the words without an operand decode alike for every DATA; KEY and FINAL read the used lanes alone. -/
theorem ignoredLanesHaveNoEffect : Obligations.IgnoredLanesHaveNoEffect := by
  refine ⟨fun w d d' s hw => ?_, fun st nk d d' s _ _ h => exec_key_congr h st s,
    fun n d d' s _ h => exec_final_congr h s⟩
  rcases hw with rfl | rfl | rfl
  · exact runCommand_congr ((decode_nop_iff _).mpr rfl) ((decode_nop_iff _).mpr rfl) s
  · exact runCommand_congr (decode_init rfl d) (decode_init rfl d') s
  · exact runCommand_congr ((decode_clr_iff _).mpr rfl) ((decode_clr_iff _).mpr rfl) s

end Sys2Proof.Machine

/-! SUPPORT. Which registers an effect, and so a command, can change (R11 to R18, R22). -/

namespace Sys2Proof.Machine

section

variable {s t : State} {i : Instr} (h : Effect s i t)

include h

theorem Effect.message_writers (hne : t.v ≠ s.v ∨ t.m ≠ s.m ∨ t.len8 ≠ s.len8) :
    i = .init ∨ (∃ d, i = .block d) ∨ (∃ n d, i = .final n d) ∨ i = .clr := by
  cases h with
  | init | block | final | clr => simp
  | _ => simp at hne

theorem Effect.key_writers (hne : t.keybuf ≠ s.keybuf ∨ t.klen ≠ s.klen) : ∃ st nk d, i = .key st nk d := by
  cases h with
  | key => simp
  | _ => simp at hne

theorem Effect.result_writers (hne : t.digest ≠ s.digest ∨ t.phase ≠ s.phase) :
    i = .init ∨ (∃ n d, i = .final n d) ∨ i = .clr := by
  cases h with
  | init | final | clr => simp
  | _ => simp at hne

end

/-- Under the gate every command but CLR leaves ERR as it was (R113, R116). -/
theorem runCommand_clr_of_recovered {c : Command} {s t : State} (h : runCommand c s = .next t) (he : s.err ≠ .none)
    (ht : t.err = .none) : decode c = .instr .clr := by
  by_contra hc
  cases (runCommand_gated he hc).symm.trans h
  exact he ht

/-- An illegal word writes ERR and the fault mark at most. -/
theorem runCommand_illegal_frame {c : Command} {why : IllegalReason} {s t : State} (h : runCommand c s = .next t)
    (hd : decode c = .illegal why) : ∃ e f, t = { s with err := e, faulted := f } := by
  rw [runCommand_illegal hd] at h
  rcases execIllegal_next h with ⟨-, rfl⟩ | ⟨-, rfl⟩
  · exact ⟨_, _, rfl⟩
  · exact ⟨t.err, t.faulted, rfl⟩

/-- Settles O21: for a legal word from the effects of its instruction; an illegal one writes ERR and the mark only. -/
theorem registersHaveTheirWriters : Obligations.RegistersHaveTheirWriters := by
  intro c s t h
  have hrecovered := runCommand_clr_of_recovered h
  have hchannel := runCommand_channel h
  cases hd : decode c with
  | instr i =>
    have he := runCommand_effect h hd
    rw [hd] at hrecovered
    simp only [Decoded.instr.injEq] at hrecovered ⊢
    exact ⟨he.message_writers, he.key_writers, he.result_writers, hrecovered, hchannel⟩
  | illegal why =>
    obtain ⟨e, f, rfl⟩ := runCommand_illegal_frame h hd
    rw [hd] at hrecovered
    exact ⟨by simp, by simp, by simp, hrecovered, hchannel⟩

end Sys2Proof.Machine

/-! SUPPORT. The zeros behind the key bytes counted so far (R80), and the fault mark (R145), over effects, commands and
steps. -/

namespace Sys2Proof.Machine

/-- A key position the new KLEN does not count was not stored to, and the buffer the stores start from is zero there. -/
theorem State.KeyTailZero.loadKey {s : State} (hs : s.KeyTailZero) (st : Bool) (nk : Nat) (d : Word) :
    (s.loadKey st nk d).KeyTailZero := by
  intro i hi hklen
  rw [State.loadKey_klen, countKeyBytes_toNat] at hklen
  rw [State.loadKey_keybuf, keyByte_store _ _ _ _ hi, if_neg (by omega), keyByte_start st _ hi]
  cases st with
  | true => rfl
  | false => exact hs i hi (by simp at hklen; omega)

theorem Effect.keyTailZero {i : Instr} {s t : State} (hs : s.KeyTailZero) (h : Effect s i t) : t.KeyTailZero := by
  cases h with
  | key st nk d => exact hs.loadKey st nk d
  | _ => exact hs

/-- Settles O25: KEY alone writes KEYBUF and KLEN, and its stores end where the new KLEN ends. -/
theorem keyBufferFillsFromFront : Obligations.KeyBufferFillsFromFront := fun _ _ =>
  step_keeps (P := State.KeyTailZero) (runCommand_keeps (P := State.KeyTailZero) Effect.keyTailZero id) id id

theorem Effect.faulted_iff {i : Instr} {s t : State} (h : Effect s i t) :
    t.faulted = true ↔ s.faulted = true ∨ (s.err = .none ∧ t.err ≠ .none) := by
  cases h with
  | keyInAbsorb _ _ _ he | initInAbsorb he | initKeyLength he | blockOutside _ he | finalOutside _ _ he => simp [he]
  | gated _ he | nop he | key _ _ _ he | init he | block _ he | final _ _ he => simp [he]
  | clr => simp

theorem runCommand_faulted_iff {c : Command} {s t : State} (h : runCommand c s = .next t) :
    t.faulted = true ↔ s.faulted = true ∨ (s.err = .none ∧ t.err ≠ .none) := by
  rcases runCommand_next h with ⟨i, -, he⟩ | ⟨why, -, ⟨he, rfl⟩ | ⟨he, rfl⟩⟩
  · exact he.faulted_iff
  · simp [he]
  · simp [he]

theorem runCommand_errMarked {c : Command} {s t : State} (hs : s.ErrMarked) (h : runCommand c s = .next t) :
    t.ErrMarked := by
  intro ht
  rw [runCommand_faulted_iff h]
  by_cases he : s.err = .none
  · exact .inr ⟨he, ht⟩
  · exact .inl (hs he)

/-- Settles O26: the errors are the effects that set the mark, and no effect clears it. -/
theorem faultMarkRecordsEveryError : Obligations.FaultMarkRecordsEveryError :=
  ⟨fun _ _ _ => runCommand_faulted_iff, fun _ _ => step_keeps (P := State.ErrMarked) runCommand_errMarked id id,
    fun _ => rfl⟩

end Sys2Proof.Machine

/-! SUPPORT. Runs of BLOCK in ABSORB (R90), and of anything but INIT and CLR in FINISHED (R138). -/

namespace Sys2Proof.Machine

theorem runCommand_block {s : State} (he : s.err = .none) (hp : s.phase = .absorb) (w : Word) :
    runCommand (encode (.block w)) s = .next (s.absorbWord w) :=
  (runCommand_encode (i := .block w) rfl s).trans (execBlock_open he w hp)

/-- Settles O42: by induction on the words, each of which leaves PHASE and ERR as the next one needs them. -/
theorem noMessageIsTooLong : Obligations.NoMessageIsTooLong := by
  intro ws
  induction ws with
  | nil =>
    intro s he hp
    exact ⟨s, rfl, hp, he, (Nat.mod_eq_of_lt s.len8.isLt).symm, rfl, rfl, rfl, rfl⟩
  | cons w ws ih =>
    intro s he hp
    obtain ⟨t, hrun, hphase, herr, hlen8, hframe⟩ := ih (s.absorbWord w) he hp
    refine ⟨t, (runCommands_cons (runCommand_block he hp w) _).trans hrun, hphase, herr, ?_, hframe⟩
    rw [hlen8, State.absorbWord_len8, BitVec.toNat_add, BitVec.toNat_ofNat, List.length_cons]
    omega

theorem Effect.finished_frame {i : Instr} {s t : State} (h : Effect s i t) (hp : s.phase = .finished)
    (hinit : i ≠ .init) (hclr : i ≠ .clr) : t.digest = s.digest ∧ t.phase = .finished := by
  cases h with
  | gated | nop | keyInAbsorb | key | blockOutside | block | finalOutside => exact ⟨rfl, hp⟩
  | initInAbsorb | initKeyLength | init => exact absurd rfl hinit
  | final _ _ _ ha => exact absurd (hp.symm.trans ha) (by decide)
  | clr => exact absurd rfl hclr

theorem runCommand_finished_frame {c : Command} {s t : State} (h : runCommand c s = .next t) (hp : s.phase = .finished)
    (hinit : decode c ≠ .instr .init) (hclr : decode c ≠ .instr .clr) :
    t.digest = s.digest ∧ t.phase = .finished := by
  cases hd : decode c with
  | instr i =>
    exact (runCommand_effect h hd).finished_frame hp (fun hi => hinit (hi ▸ hd)) (fun hi => hclr (hi ▸ hd))
  | illegal why =>
    obtain ⟨e, f, rfl⟩ := runCommand_illegal_frame h hd
    exact ⟨rfl, hp⟩

theorem runCommands_finished_frame {cs : List Command} {s t : State} (hp : s.phase = .finished)
    (hcs : ∀ c ∈ cs, decode c ≠ .instr .init ∧ decode c ≠ .instr .clr) (h : runCommands cs s = .next t) :
    t.digest = s.digest ∧ t.phase = .finished := by
  induction cs generalizing s with
  | nil => cases h; exact ⟨rfl, hp⟩
  | cons c cs ih =>
    obtain ⟨⟨hinit, hclr⟩, hrest⟩ := List.forall_mem_cons.mp hcs
    obtain ⟨u, hu, hut⟩ := runCommands_cons_next h
    obtain ⟨hdigest, hphase⟩ := runCommand_finished_frame hu hp hinit hclr
    obtain ⟨hdigest', hphase'⟩ := ih hphase hrest hut
    exact ⟨hdigest'.trans hdigest, hphase'⟩

/-- Settles O44: command by command, and no command sets BUSY. -/
theorem finishedDigestStaysValid : Obligations.FinishedDigestStaysValid := by
  intro cs s t hp hcs h
  obtain ⟨hdigest, hphase⟩ := runCommands_finished_frame hp hcs h
  refine ⟨hdigest, hphase, fun hb => ?_⟩
  simp [digestValid, (runCommands_channel cs h).1, hb, hphase]

end Sys2Proof.Machine

/-! SUPPORT. SipRound and Compress merge no two states (R65, R66, R68): each statement replaces one word by a function
of it that is one to one once the other words are given. -/

namespace Sys2Proof.Machine

open Function

theorem Perm.read_write (x : Perm) (r q : PermReg) (w : Word) :
    (x.write r w).read q = if q = r then w else x.read q := by
  cases r <;> cases q <;> rfl

theorem Perm.ext_read {x y : Perm} (h : ∀ r, x.read r = y.read r) : x = y := by
  cases x; cases y
  exact congr (congr (congr (congrArg Perm.mk (h .v0)) (h .v1)) (h .v2)) (h .v3)

/-- Writing one word merges no two states, if the word written and the other words determine the word replaced. -/
theorem Perm.write_injective {r : PermReg} {g : Perm → Word}
    (hg : ∀ {x y : Perm}, (∀ q ≠ r, x.read q = y.read q) → g x = g y → x.read r = y.read r) :
    Injective fun x : Perm => x.write r (g x) := by
  intro x y h
  have hread : ∀ q, (x.write r (g x)).read q = (y.write r (g y)).read q := fun q => congrArg (·.read q) h
  have hother : ∀ q ≠ r, x.read q = y.read q := fun q hq => by simpa [Perm.read_write, hq] using hread q
  have hwritten : g x = g y := by simpa [Perm.read_write] using hread r
  refine Perm.ext_read fun q => ?_
  by_cases hq : q = r
  · exact hq ▸ hg hother hwritten
  · exact hother q hq

theorem rotl64_injective {r : Nat} (h : r < 64) : Injective fun x => rotl64 x r := by
  intro x y hxy
  refine BitVec.eq_of_getLsbD_eq fun i hi => ?_
  have hbit := congrArg (·.getLsbD ((i + r) % 64)) hxy
  have hback : ((i + r) % 64 + 64 - r) % 64 = i := by omega
  simpa only [rotl64_getLsbD _ h (Nat.mod_lt _ (by decide : 64 > 0)), hback] using hbit

/-- The word a statement reads besides the one it replaces is another one, and a rotation is by less than 64. -/
def RoundStmt.Reversible : RoundStmt → Prop
  | .add dst src => src ≠ dst
  | .rotXor dst r src => src ≠ dst ∧ r < 64
  | .rot _ r => r < 64

theorem RoundStmt.run_injective {st : RoundStmt} (h : st.Reversible) : Injective fun x => RoundStmt.run x st := by
  cases st with
  | add dst src =>
    refine Perm.write_injective (r := dst) fun hother hsum => ?_
    rw [hother src h] at hsum
    exact add_right_cancel hsum
  | rotXor dst r src =>
    obtain ⟨hsrc, hr⟩ := h
    refine Perm.write_injective (r := dst) fun hother hxor => ?_
    rw [hother src hsrc] at hxor
    exact rotl64_injective hr ((BitVec.xor_left_inj _).mp hxor)
  | rot dst r => exact Perm.write_injective (r := dst) fun _ hrot => rotl64_injective h hrot

theorem runStmts_injective {stmts : List RoundStmt} (h : ∀ st ∈ stmts, st.Reversible) : Injective (runStmts stmts) := by
  induction stmts with
  | nil => exact injective_id
  | cons st stmts ih =>
    obtain ⟨hst, hrest⟩ := List.forall_mem_cons.mp h
    exact (ih hrest).comp (RoundStmt.run_injective hst)

theorem sipRound_stmts_reversible : ∀ st ∈ firstHalfStmts ++ secondHalfStmts, st.Reversible := by
  simp [firstHalfStmts, secondHalfStmts, RoundStmt.Reversible]

theorem firstHalf_injective : Injective firstHalf :=
  runStmts_injective (List.forall_mem_append.mp sipRound_stmts_reversible).1

theorem secondHalf_injective : Injective secondHalf :=
  runStmts_injective (List.forall_mem_append.mp sipRound_stmts_reversible).2

theorem sipRound_injective : Injective sipRound := by
  intro x y h
  rw [sipRound_eq_halves, sipRound_eq_halves] at h
  exact firstHalf_injective (secondHalf_injective h)

theorem sipRounds_injective (n : Nat) : Injective (sipRounds n) := by
  induction n with
  | zero => exact injective_id
  | succ n ih => exact ih.comp sipRound_injective

/-- XOR with a fixed word, into one word of the state. -/
theorem Perm.xor_write_injective (r : PermReg) (m : Word) : Injective fun x : Perm => x.write r (x.read r ^^^ m) :=
  Perm.write_injective fun _ hxor => (BitVec.xor_left_inj _).mp hxor

theorem compress_injective (m : Word) : Injective fun x => compress x m :=
  (Perm.xor_write_injective .v0 m).comp
    ((sipRounds_injective Config.compressionRounds).comp (Perm.xor_write_injective .v3 m))

theorem perm_finite : Finite Perm :=
  Finite.of_injective (fun x : Perm => (x.v0, x.v1, x.v2, x.v3)) fun x y h => by cases x; cases y; simpa using h

/-- Settles O33: a one-to-one map of a finite set to itself is onto. -/
theorem sipRoundIsAPermutation : Obligations.SipRoundIsAPermutation := by
  have := perm_finite
  exact ⟨sipRound_injective.bijective_of_finite, fun m => (compress_injective m).bijective_of_finite⟩

end Sys2Proof.Machine

/-! SUPPORT. The round engine after any number of clocks (R67), and the metered datapath against the plain one (R73,
R142). -/

namespace Sys2Proof.Machine

/-- The rounds run are those the clocks give, or all there are. -/
theorem EngineState.clocks_eq (cfg : Config.Params) (n k : Nat) (x : Perm) :
    EngineState.clocks cfg k ⟨x, n⟩ =
      ⟨sipRounds (min (cfg.roundsPerCycle * k) n) x, n - min (cfg.roundsPerCycle * k) n⟩ := by
  induction k generalizing n x with
  | zero => simp [EngineState.clocks]
  | succ k ih =>
    set r := cfg.roundsPerCycle
    have hran : min r n + min (r * k) (n - min r n) = min (r * k + r) n := by omega
    have hleft : n - min r n - min (r * k) (n - min r n) = n - min (r * k + r) n := by omega
    rw [EngineState.clocks, EngineState.clock, ih, ← sipRounds_add, Nat.mul_succ, hran, hleft]

/-- Settles O34: the two clauses are the two values of the minimum. -/
theorem roundEngineAnyRate : Obligations.RoundEngineAnyRate := by
  refine fun cfg n k x _ => ⟨fun h => ?_, fun h => ?_⟩
  · rw [EngineState.clocks_eq, Nat.min_eq_right h, Nat.sub_self]
  · rw [EngineState.clocks_eq, Nat.min_eq_left h]

theorem Metered.compress_eq (m : Word) (y : Metered) :
    y.compress m = ⟨Machine.compress y.v m, y.rounds + 2, y.compressions + 1⟩ := by
  rw [Metered.compress, Metered.roundN_eq]
  rfl

theorem Metered.finalize_eq (y : Metered) :
    y.finalize = ⟨Machine.finalize y.v, y.rounds + 4, y.compressions⟩ := by
  rw [Metered.finalize, Metered.roundN_eq]
  rfl

theorem Metered.absorbBlocks_eq (msg : List Byte) (y : Metered) (k : Nat) :
    Metered.absorbBlocks msg y k = ⟨Machine.absorbBlocks msg y.v k, y.rounds + 2 * k, y.compressions + k⟩ := by
  induction k with
  | zero => rfl
  | succ k ih => rw [Metered.absorbBlocks, ih, Metered.compress_eq, absorbBlocks_succ, Nat.mul_succ]; rfl

/-- Settles O38: the meter goes up by 2 and 1 for each block and the tail, and by 4 for the finalization. -/
theorem roundCountDependsOnLengthOnly : Obligations.RoundCountDependsOnLengthOnly := by
  intro key msg
  rw [Metered.sipHash24, Metered.absorbBlocks_eq, Metered.compress_eq, Metered.finalize_eq]
  refine ⟨rfl, ?_, ?_⟩
  · show 0 + msg.length / 8 + 1 = _
    omega
  · show 0 + 2 * (msg.length / 8) + 2 + 4 = _
    omega

theorem datapathWork_block (d : Word) (s : State) : datapathWork (.block d) s = ⟨compress s.v d, 2, 1⟩ :=
  Metered.compress_eq d _

theorem datapathWork_final (n : Nat) (d : Word) (s : State) :
    datapathWork (.final n d) s = ⟨finalize (compress s.v (pad d n (finalLength n s))), 6, 1⟩ := by
  rw [datapathWork, Metered.compress_eq, Metered.finalize_eq]
  rfl

section

variable {c : Command} {i : Instr} {s t : State}

theorem commandRounds_instr (hd : decode c = .instr i) :
    commandRounds c s = if runsBody i s then (datapathWork i s).rounds else 0 := by
  simp [commandRounds, hd]

theorem commandRounds_illegal {why : IllegalReason} (hd : decode c = .illegal why) : commandRounds c s = 0 := by
  simp [commandRounds, hd]

/-- A command that does no datapath work runs no round, whether its body runs or not. -/
theorem commandRounds_of_no_work (hd : decode c = .instr i) (hi : datapathWork i s = Metered.start s.v) :
    commandRounds c s = 0 := by
  rw [commandRounds_instr hd, hi]
  exact ite_self 0

theorem commandRounds_of_no_body (hd : decode c = .instr i) (hi : runsBody i s = false) : commandRounds c s = 0 := by
  rw [commandRounds_instr hd, hi]
  rfl

/-- Under the gate no body runs but CLR's, which does no datapath work. -/
theorem commandRounds_gated (he : s.err ≠ .none) : commandRounds c s = 0 := by
  cases hd : decode c with
  | illegal why => exact commandRounds_illegal hd
  | instr i =>
    cases i with
    | clr => exact commandRounds_of_no_work hd rfl
    | nop | key | init | block | final => exact commandRounds_of_no_body hd (by simp [runsBody, he])

/-- What raises an error has not passed the checks of its body. -/
theorem Effect.runsBody_of_err (h : Effect s i t) (he : s.err = .none) (ht : t.err ≠ .none) :
    runsBody i s = false := by
  cases h with
  | keyInAbsorb _ _ _ _ hp | initInAbsorb _ hp | blockOutside _ _ hp | finalOutside _ _ _ hp => simp [runsBody, hp]
  | initKeyLength _ _ hk => simp [runsBody, hk, Config.keyBytes]
  | gated | nop | key | init | block | final => exact absurd he ht
  | clr => exact absurd rfl ht

theorem commandRounds_of_err (h : runCommand c s = .next t) (he : s.err = .none) (ht : t.err ≠ .none) :
    commandRounds c s = 0 := by
  cases hd : decode c with
  | illegal why => exact commandRounds_illegal hd
  | instr i => exact commandRounds_of_no_body hd ((runCommand_effect h hd).runsBody_of_err he ht)

section

variable (h : runCommand c s = .next t) (he : s.err = .none) (ht : t.err = .none)

include h he ht

theorem commandRounds_block {d : Word} (hd : decode c = .instr (.block d)) :
    commandRounds c s = 2 ∧ (datapathWork (.block d) s).v = t.v := by
  rw [commandRounds_instr hd, datapathWork_block]
  cases runCommand_effect h hd with
  | gated _ hs => exact absurd he hs
  | blockOutside => exact absurd ht (by simp)
  | block _ _ hp => simp [runsBody, he, hp]

theorem commandRounds_final {n : Nat} {d : Word} (hd : decode c = .instr (.final n d)) :
    commandRounds c s = 6 ∧ extract (datapathWork (.final n d) s).v = t.digest := by
  rw [commandRounds_instr hd, datapathWork_final]
  cases runCommand_effect h hd with
  | gated _ hs => exact absurd he hs
  | finalOutside => exact absurd ht (by simp)
  | final _ _ _ hp => simp [runsBody, he, hp, finalDigest]

end

end

/-- Settles O39: BLOCK and FINAL in ABSORB by their metered work; the others do none, and no body runs for an error or
under the gate. -/
theorem commandRoundCountsFixed : Obligations.CommandRoundCountsFixed := by
  refine fun c s t h => ⟨fun he ht => ⟨fun d hd => commandRounds_block h he ht hd,
    fun n d hd => commandRounds_final h he ht hd, ?_⟩, commandRounds_of_err h, commandRounds_gated⟩
  rintro (hd | ⟨st, nk, d, hd⟩ | hd | hd) <;> exact commandRounds_of_no_work hd rfl

end Sys2Proof.Machine
